-- ==== Sys2Proof/Word.lean ====
section
/-! DEFINITION. The word types of the block: 32-bit packet and register words, bytes of buffer memory, the 10-bit halves of
the data register (00_scope.md R11, R14; 10_state.md R31, R42). -/

namespace Sys2Proof

/-- A 32-bit word: a packet word, a register, an address, a length, a handle (R11, R31, R110). -/
abbrev Word := BitVec 32

/-- One byte of buffer memory (20_memory.md R80). -/
abbrev Byte := BitVec 8

/-- One half of the data register: 10 bits (10_state.md R42). -/
abbrev Latch := BitVec 10

end Sys2Proof
end

