-- ==== Sys2Proof/Syntax.lean ====
section
/-! DEFINITION. Syntax of the command set: the seventeen commands of the opcode table (30_encoding.md R118), the packet that
carries one (R110), and the callback kinds and events (R111, R115; 44_interrupt_dispatcher.md R267). -/

namespace Sys2Proof

/-- The command packet: the command word W0 and the two operand words (30_encoding.md R110). -/
structure Packet where
  w0 : Word
  w1 : Word
  w2 : Word
deriving DecidableEq, Repr

/-- The four error kinds (00_scope.md R10, 30_encoding.md R115). -/
inductive ErrKind where
  | overrun
  | framing
  | parity
  | noise
deriving DecidableEq, Repr

/-- The event a callback is fired with (44_interrupt_dispatcher.md R267). -/
inductive CallbackEvent where
  | txDone
  | rxDone
  | err (kind : ErrKind)
deriving DecidableEq, Repr

/-- The callback slot REG_CALLBACK names: KIND 0, 1, 2 (30_encoding.md R111); KIND 3 is reserved and no command has it. -/
inductive SlotKind where
  | error
  | txDone
  | rxDone
deriving DecidableEq, Repr

/-- The opcodes, one per row of the opcode table (30_encoding.md R118). -/
inductive Op where
  | init
  | deinit
  | setbaud
  | sendBlocking
  | sendAsync
  | recvBlocking
  | recvAsync
  | abortSend
  | abortRecv
  | txEnable
  | txDisable
  | rxEnable
  | rxDisable
  | regCallback
  | regErrCallback
  | getTxStatus
  | getRxStatus
deriving DecidableEq, Repr

/-- The commands. `i` is the instance index of W0[11:8]; the other operands are ARG0 and ARG1 as they stand (30_encoding.md
R117). An ignored operand word is not kept. -/
inductive Instr where
  /-- INIT: `config` is the configuration word (R116), not yet checked. -/
  | init (i : Nat) (config baud : Word)
  | deinit (i : Nat)
  | setbaud (i : Nat) (baud : Word)
  | sendBlocking (i : Nat) (addr len : Word)
  | sendAsync (i : Nat) (addr len : Word)
  | recvBlocking (i : Nat) (addr len : Word)
  | recvAsync (i : Nat) (addr len : Word)
  | abortSend (i : Nat)
  | abortRecv (i : Nat)
  | txEnable (i : Nat)
  | txDisable (i : Nat)
  | rxEnable (i : Nat)
  | rxDisable (i : Nat)
  | regCallback (i : Nat) (kind : SlotKind) (handle : Word)
  | regErrCallback (i : Nat) (handle : Word)
  | getTxStatus (i : Nat)
  | getRxStatus (i : Nat)
deriving DecidableEq, Repr

/-- The instance a command names. -/
def Instr.inst : Instr → Nat
  | .init i _ _ => i
  | .deinit i => i
  | .setbaud i _ => i
  | .sendBlocking i _ _ => i
  | .sendAsync i _ _ => i
  | .recvBlocking i _ _ => i
  | .recvAsync i _ _ => i
  | .abortSend i => i
  | .abortRecv i => i
  | .txEnable i => i
  | .txDisable i => i
  | .rxEnable i => i
  | .rxDisable i => i
  | .regCallback i _ _ => i
  | .regErrCallback i _ => i
  | .getTxStatus i => i
  | .getRxStatus i => i

/-- The opcode of a command. -/
def Instr.op : Instr → Op
  | .init _ _ _ => .init
  | .deinit _ => .deinit
  | .setbaud _ _ => .setbaud
  | .sendBlocking _ _ _ => .sendBlocking
  | .sendAsync _ _ _ => .sendAsync
  | .recvBlocking _ _ _ => .recvBlocking
  | .recvAsync _ _ _ => .recvAsync
  | .abortSend _ => .abortSend
  | .abortRecv _ => .abortRecv
  | .txEnable _ => .txEnable
  | .txDisable _ => .txDisable
  | .rxEnable _ => .rxEnable
  | .rxDisable _ => .rxDisable
  | .regCallback _ _ _ => .regCallback
  | .regErrCallback _ _ => .regErrCallback
  | .getTxStatus _ => .getTxStatus
  | .getRxStatus _ => .getRxStatus

end Sys2Proof
end

