-- ==== Sys2Proof/Config.lean ====
section
/-! DEFINITION. The open parameters of the spec (00_scope.md R9, R10, R12, R13; 20_memory.md R87) as plain data. They stand in
State and no step writes them, so a statement about every state holds for every value of them (log 4). The number of
instances N (R5) is the length of the state's list of instances. -/

namespace Sys2Proof

/-- A range of buffer addresses: `base`, `base + 1`, …, `size` of them (log 5). -/
structure Region where
  base : Nat
  size : Nat
deriving DecidableEq, Repr

/-- One line of HANDLER: the commands the handler `handle` issues when instance `inst` fires it with `event`, or when any
instance does for `none` (00_scope.md R13; the event carries the instance, 92_eei_decisions.md D34; log 6). -/
structure HandlerEntry where
  inst : Option Nat
  handle : Word
  event : CallbackEvent
  commands : List Packet
deriving DecidableEq, Repr

/-- The open parameters. -/
structure Params where
  /-- OSR16_INSTANCE (R9). -/
  osr16 : Option Nat
  /-- ERR_PRIORITY, the highest kind first (R10). -/
  errPriority : List ErrKind
  /-- MEM_ADMITS: the addresses in one of these ranges (R12). -/
  regions : List Region
  /-- HANDLER (R13). -/
  handlers : List HandlerEntry
  /-- CMD_PORT_BASE, on which no rule depends (R87). -/
  cmdPortBase : Nat
deriving DecidableEq, Repr

/-- The parameters State.reset has: the common assumptions of 95_test_vectors.md and R10's default order.
DESIGN CHOICE (log 4): unsafe where a claim is made about State.reset alone. -/
def Params.default : Params where
  osr16 := none
  errPriority := [.overrun, .framing, .parity, .noise]
  regions := [⟨0, 2 ^ 32⟩]
  handlers := []
  cmdPortBase := 0

/-- A legal choice of the parameters for `n` instances: OSR16_INSTANCE is an instance (R9) and ERR_PRIORITY is a strict
total order on the four kinds (R10). -/
abbrev Params.wf (p : Params) (n : Nat) : Prop :=
  (∀ j ∈ p.osr16, j < n) ∧ p.errPriority.Nodup ∧
    .overrun ∈ p.errPriority ∧ .framing ∈ p.errPriority ∧ .parity ∈ p.errPriority ∧ .noise ∈ p.errPriority

end Sys2Proof
end

