-- ==== Sys2Proof/WellFormed.lean ====
section
/-! DEFINITION. Well-formed commands: the ones a command word can carry. The words and the callback kind are bounded by their
types; the instance index must fit the 4-bit field INST (30_encoding.md R111). An index of N or more that fits is well formed
and is answered with InvalidArgument when the command runs (42_configuration_ops.md R180). -/

namespace Sys2Proof

/-- The instance index fits W0[11:8]. -/
abbrev Instr.instFits (c : Instr) : Prop := c.inst < 16

/-- A command that some legal packet carries. -/
abbrev WellFormed (c : Instr) : Prop := c.instFits

end Sys2Proof
end

