-- ==== Sys2Proof/Decode.lean ====
section
/-! DEFINITION. The decoder and the encoder of command packets (30_encoding.md R110, R111, R116 to R119). The decoder is total
on any three words and rejects by name; what an illegal packet then does is Machine/Events.lean's (R119). -/

namespace Sys2Proof

/-- `v[hi:lo]` of 00_scope.md R14. -/
def slice (v : Word) (hi lo : Nat) : Nat := (v.toNat >>> lo) % 2 ^ (hi - lo + 1)

/-- The opcode's number, W0[7:0] (R118). -/
def Op.code : Op → Nat
  | .init => 0x01
  | .deinit => 0x02
  | .setbaud => 0x03
  | .sendBlocking => 0x10
  | .sendAsync => 0x11
  | .recvBlocking => 0x12
  | .recvAsync => 0x13
  | .abortSend => 0x14
  | .abortRecv => 0x15
  | .txEnable => 0x20
  | .txDisable => 0x21
  | .rxEnable => 0x22
  | .rxDisable => 0x23
  | .regCallback => 0x30
  | .regErrCallback => 0x31
  | .getTxStatus => 0x40
  | .getRxStatus => 0x41

/-- The opcode a number stands for, if any (R118, R119 (a)). -/
def Op.ofCode : Nat → Option Op
  | 0x01 => some .init
  | 0x02 => some .deinit
  | 0x03 => some .setbaud
  | 0x10 => some .sendBlocking
  | 0x11 => some .sendAsync
  | 0x12 => some .recvBlocking
  | 0x13 => some .recvAsync
  | 0x14 => some .abortSend
  | 0x15 => some .abortRecv
  | 0x20 => some .txEnable
  | 0x21 => some .txDisable
  | 0x22 => some .rxEnable
  | 0x23 => some .rxDisable
  | 0x30 => some .regCallback
  | 0x31 => some .regErrCallback
  | 0x40 => some .getTxStatus
  | 0x41 => some .getRxStatus
  | _ => none

/-- KIND of REG_CALLBACK (R111). -/
def SlotKind.code : SlotKind → Nat
  | .error => 0
  | .txDone => 1
  | .rxDone => 2

/-- The callback kind a KIND value stands for; 3 is reserved (R111). -/
def SlotKind.ofCode : Nat → Option SlotKind
  | 0 => some .error
  | 1 => some .txDone
  | 2 => some .rxDone
  | _ => none

/-- Why a packet is illegal: the four cases of R119. -/
inductive Illegal where
  /-- (a) OPC is not in the table. -/
  | unknownOpcode
  /-- (b) W0[31:14] is not 0. -/
  | reservedBits
  /-- (c) KIND is not 0 and OPC is not REG_CALLBACK's. -/
  | kindMisuse
  /-- (d) REG_CALLBACK with KIND = 3. -/
  | reservedKind
deriving DecidableEq, Repr

/-- The command a legal opcode, instance, callback kind and operand words make (R117). -/
def Op.build (op : Op) (i : Nat) (kind : SlotKind) (w1 w2 : Word) : Instr :=
  match op with
  | .init => .init i w1 w2
  | .deinit => .deinit i
  | .setbaud => .setbaud i w2
  | .sendBlocking => .sendBlocking i w1 w2
  | .sendAsync => .sendAsync i w1 w2
  | .recvBlocking => .recvBlocking i w1 w2
  | .recvAsync => .recvAsync i w1 w2
  | .abortSend => .abortSend i
  | .abortRecv => .abortRecv i
  | .txEnable => .txEnable i
  | .txDisable => .txDisable i
  | .rxEnable => .rxEnable i
  | .rxDisable => .rxDisable i
  | .regCallback => .regCallback i kind w1
  | .regErrCallback => .regErrCallback i w1
  | .getTxStatus => .getTxStatus i
  | .getRxStatus => .getRxStatus i

/-- Decode (R119), the checks in its order. -/
def decode (p : Packet) : Except Illegal Instr :=
  match Op.ofCode (slice p.w0 7 0) with
  | none => .error .unknownOpcode
  | some op =>
    if slice p.w0 31 14 ≠ 0 then .error .reservedBits
    else if slice p.w0 13 12 ≠ 0 ∧ op ≠ .regCallback then .error .kindMisuse
    else
      match SlotKind.ofCode (slice p.w0 13 12) with
      | none => .error .reservedKind
      | some kind => .ok (op.build (slice p.w0 11 8) kind p.w1 p.w2)

/-! ## The encoder -/

/-- The command word with opcode `op`, instance `i` and KIND `kind`; the reserved bits are 0 (R111). -/
def commandWord (op : Op) (i kind : Nat) : Word :=
  BitVec.ofNat 32 (op.code + (i % 16) * 2 ^ 8 + (kind % 4) * 2 ^ 12)

/-- KIND as the command's word has it: 0 but for REG_CALLBACK (R119 (c)). -/
def Instr.kindCode : Instr → Nat
  | .regCallback _ kind _ => kind.code
  | _ => 0

/-- The command word W0 of a command. -/
def Instr.w0 (c : Instr) : Word := commandWord c.op c.inst c.kindCode

/-- The packet of a command; an ignored operand word is written 0 (R117). -/
def encode (c : Instr) : Packet :=
  match c with
  | .init _ config baud => ⟨c.w0, config, baud⟩
  | .setbaud _ baud => ⟨c.w0, 0, baud⟩
  | .sendBlocking _ addr len => ⟨c.w0, addr, len⟩
  | .sendAsync _ addr len => ⟨c.w0, addr, len⟩
  | .recvBlocking _ addr len => ⟨c.w0, addr, len⟩
  | .recvAsync _ addr len => ⟨c.w0, addr, len⟩
  | .regCallback _ _ handle => ⟨c.w0, handle, 0⟩
  | .regErrCallback _ handle => ⟨c.w0, handle, 0⟩
  | .deinit _ => ⟨c.w0, 0, 0⟩
  | .abortSend _ => ⟨c.w0, 0, 0⟩
  | .abortRecv _ => ⟨c.w0, 0, 0⟩
  | .txEnable _ => ⟨c.w0, 0, 0⟩
  | .txDisable _ => ⟨c.w0, 0, 0⟩
  | .rxEnable _ => ⟨c.w0, 0, 0⟩
  | .rxDisable _ => ⟨c.w0, 0, 0⟩
  | .getTxStatus _ => ⟨c.w0, 0, 0⟩
  | .getRxStatus _ => ⟨c.w0, 0, 0⟩

/-! ## Packets as numbered bits -/

/-- The packet whose bits are the low `nbits` bits of `w`: W0 is bits 31..0, W1 bits 63..32, W2 bits 95..64, and every bit
from `nbits` on is 0 (log 12). -/
def tablePacket (nbits w : Nat) : Packet :=
  let v := w % 2 ^ nbits
  ⟨BitVec.ofNat 32 v, BitVec.ofNat 32 (v >>> 32), BitVec.ofNat 32 (v >>> 64)⟩

/-- The command the decoder reads from a packet given as numbered bits. -/
def decodeTableWord (nbits w : Nat) : Option Instr :=
  match decode (tablePacket nbits w) with
  | .ok c => some c
  | .error _ => none

end Sys2Proof
end

