-- ==== Sys2Proof/Machine/Bits.lean ====
section
/-! DEFINITION. Bit positions and reset values of the registers (10_state.md R39 to R41) and the writes of one bit or one
field. The positions are the spec's own layout (92_eei_decisions.md D12). -/

namespace Sys2Proof.Machine

/-- Bit `k` of a register. -/
abbrev bit (w : Word) (k : Nat) : Bool := w.getLsbD k

/-- `w` with bit `k` made `b`, every other bit as it was. -/
def setBit (w : Word) (k : Nat) (b : Bool) : Word :=
  if b then w ||| BitVec.twoPow 32 k else w &&& ~~~(BitVec.twoPow 32 k)

/-- `w` with bits `hi:lo` made `v` (its low bits), every other bit as it was. -/
def setField (w : Word) (hi lo v : Nat) : Word :=
  (w &&& ~~~(BitVec.ofNat 32 ((2 ^ (hi - lo + 1) - 1) <<< lo))) ||| BitVec.ofNat 32 ((v % 2 ^ (hi - lo + 1)) <<< lo)

/-! ## CTRL (R39) -/

abbrev Ctrl.pt : Nat := 0
abbrev Ctrl.pe : Nat := 1
abbrev Ctrl.m : Nat := 4
abbrev Ctrl.m7 : Nat := 11
abbrev Ctrl.m10 : Nat := 12
abbrev Ctrl.re : Nat := 18
abbrev Ctrl.te : Nat := 19
abbrev Ctrl.rie : Nat := 21
abbrev Ctrl.tie : Nat := 23
abbrev Ctrl.peie : Nat := 24
abbrev Ctrl.feie : Nat := 25
abbrev Ctrl.neie : Nat := 26
abbrev Ctrl.orie : Nat := 27

/-- CTRL's reset value (R39). -/
def Ctrl.resetValue : Word := 0x00000000

/-- The bits of CTRL that R39 lists; the others are reserved and read 0. -/
def Ctrl.fields : Word := 0x0FAC1813

/-! ## STAT (R40) -/

abbrev Stat.pf : Nat := 16
abbrev Stat.fe : Nat := 17
abbrev Stat.nf : Nat := 18
abbrev Stat.or : Nat := 19
abbrev Stat.rdrf : Nat := 21
abbrev Stat.tc : Nat := 22
abbrev Stat.tdre : Nat := 23

/-- STAT's reset value: TDRE and TC (R40). -/
def Stat.resetValue : Word := 0x00C00000

/-- The bits of STAT that R40 lists; the others are reserved and read 0. -/
def Stat.fields : Word := 0x00EF0000

/-! ## BAUD (R41) -/

abbrev Baud.sbns : Nat := 13
abbrev Baud.bothEdge : Nat := 17

/-- BAUD.SBR, the divider D. -/
def Baud.sbr (w : Word) : Nat := slice w 12 0

/-- BAUD.OSR, the oversampling ratio minus one. -/
def Baud.osr (w : Word) : Nat := slice w 28 24

/-- BAUD with SBR written. -/
def Baud.withSbr (w : Word) (d : Nat) : Word := setField w 12 0 d

/-- BAUD with OSR written. -/
def Baud.withOsr (w : Word) (r : Nat) : Word := setField w 28 24 r

/-- BAUD's reset value: OSR = 15, SBR = 4 (R41). -/
def Baud.resetValue : Word := 0x0F000004

/-- The bits of BAUD that R41 lists; the others are reserved and read 0. -/
def Baud.fields : Word := 0x1F023FFF

/-- MATCH's reset value: disabled (R43). -/
def Match.resetValue : Word := 0x00000000

end Sys2Proof.Machine
end

