-- ==== Sys2Proof/Machine/State.lean ====
section
/-! DEFINITION. The state of the block (10_state.md R30 to R48, R55), the state of its surroundings that its steps read
(buffer memory, 20_memory.md R80; the open parameters; the agenda), the reasons a step can stop, and the state after
power-on reset (70_reset_and_hazards.md R360). Plain data throughout. -/

namespace Sys2Proof.Machine

/-! ## Configuration (R32) -/

/-- The nominal character width (00_scope.md R8). -/
inductive Width where
  | w7
  | w8
  | w9
  | w10
deriving DecidableEq, Repr

inductive Parity where
  | disabled
  | even
  | odd
deriving DecidableEq, Repr

inductive StopBits where
  | one
  | two
deriving DecidableEq, Repr

/-- The clock source (R6). -/
inductive Clock where
  | slow
  | fast
deriving DecidableEq, Repr

/-- UartConfig (R32). -/
structure UartConfig where
  width : Width
  parity : Parity
  stop : StopBits
  baud : Word
  clk : Clock
deriving DecidableEq, Repr

/-! ## Transfer buffers (R33 to R35) -/

/-- The transmit buffer's recorded status (R34). -/
inductive TxStatus where
  | uninitialized
  | ready
  | busy
deriving DecidableEq, Repr

/-- The receive buffer's recorded status (R35). -/
inductive RxStatus where
  | uninitialized
  | ready
  | busy
  | error (kind : ErrKind)
deriving DecidableEq, Repr

/-- A direction's transfer buffer (R33); `status` is that direction's own type. -/
structure TransferBuffer (Status : Type) where
  addr : Word
  len : Word
  progress : Word
  busy : Bool
  status : Status
deriving DecidableEq, Repr

/-- The callback slots of an instance; handle 0 is an empty slot (R38). -/
structure CallbackSlots where
  err : Word
  txDone : Word
  rxDone : Word
deriving DecidableEq, Repr

/-! ## Line side (R44, 30_encoding.md R120) -/

/-- A transmitted frame (R44). -/
structure TxFrame where
  data : Nat
  dataBits : Nat
  parity : Option Bool
  stop : StopBits
deriving DecidableEq, Repr

/-- A received frame, as the line's environment supplies it (45_line_side.md R296). -/
structure RxFrame where
  bits : Latch
  stopOk : Bool
  noisy : Bool
deriving DecidableEq, Repr

/-! ## One instance (R31) -/

structure InstState where
  cfg : Option UartConfig
  ctrl : Word
  stat : Word
  baud : Word
  rdr : Latch
  tdr : Latch
  matchReg : Word
  txShift : Option TxFrame
  lineEn : Bool
  tx : TransferBuffer TxStatus
  rx : TransferBuffer RxStatus
  cb : CallbackSlots
  wire : List TxFrame
deriving DecidableEq, Repr

/-! ## The host-side agents (R45, R46) -/

/-- The phase of a blocking send (R45). -/
inductive Phase where
  | waitTdre
  | waitTc
deriving DecidableEq, Repr

/-- The foreground agent: idle, or inside a blocking transfer. `e` is the effective width captured at acceptance and `idx`
the byte offset of the next character (R45, log 16). -/
inductive FgState where
  | idle
  | sendBlk (i : Nat) (addr len : Word) (e idx : Nat) (phase : Phase)
  | recvBlk (i : Nat) (addr len : Word) (e idx : Nat)
deriving DecidableEq, Repr

/-- The interrupt-context agent: no handler, or a handler with commands left to issue (R46). -/
inductive IcState where
  | none
  | active (i : Nat) (event : CallbackEvent) (pending : List Packet)
deriving DecidableEq, Repr

/-! ## Logs (R47, R48) -/

/-- The names of the model faults (60_exceptions.md R321). -/
inductive FaultName where
  /-- INIT with a transfer in flight on the instance. -/
  | configureDuringTransfer
  /-- SETBAUD with a transfer in flight on the instance. -/
  | baudChangeDuringTransfer
  /-- SEND_BLOCKING or RECV_BLOCKING issued from interrupt context. -/
  | blockingInInterruptContext
  /-- A quantity a rule needs is undefined in this state, which no run from reset reaches (log 10). -/
  | invariantBroken
deriving DecidableEq, Repr

/-- The context that issued a command (60_exceptions.md R332). -/
inductive Ctx where
  | fg
  | ic
deriving DecidableEq, Repr

/-- The result packet (30_encoding.md R112). -/
structure ResultPacket where
  p0 : Word
  p1 : Word
deriving DecidableEq, Repr

/-- An entry of the observation log (R47). -/
inductive TraceEvent where
  | callback (i : Nat) (kind : CallbackEvent) (handle : Word)
  | result (ctx : Ctx) (w0 : Word) (packet : ResultPacket)
deriving DecidableEq, Repr

/-! ## The choice of the next step (log 1) -/

/-- A step an agent or the environment may take (00_scope.md R18). -/
inductive Event where
  /-- FG issues a command packet. -/
  | command (p : Packet)
  /-- FG takes the next step of its blocking loop (43_transfer_ops.md R222, R225). -/
  | foreground
  /-- IC takes a step: IC_CMD or IC_RETURN (60_exceptions.md R328). -/
  | interrupt
  /-- DISPATCH(i) (44_interrupt_dispatcher.md R261). -/
  | dispatch (i : Nat)
  /-- TX_LOAD(i) (45_line_side.md R293). -/
  | txLoad (i : Nat)
  /-- TX_SHIFT_DONE(i) (R294). -/
  | txShiftDone (i : Nat)
  /-- RX_FRAME(i, f) (R296). -/
  | rxFrame (i : Nat) (f : RxFrame)
  /-- The host writes a byte of buffer memory (20_memory.md R91). -/
  | hostWrite (a : Word) (v : Byte)
deriving DecidableEq, Repr

/-! ## The whole state (R30) -/

structure State where
  /-- The instances; N is the length of the list (00_scope.md R5, log 4). -/
  inst : List InstState
  fg : FgState
  ic : IcState
  faults : List FaultName
  trace : List TraceEvent
  /-- Buffer memory in canonical form (20_memory.md R80). -/
  mem : List Host.Cell
  /-- The open parameters; no step writes them (log 4). -/
  params : Params
  /-- The steps to take next, in order: the model's own field (log 1). -/
  agenda : List Event
deriving DecidableEq, Repr

/-- Why a step stops the machine. -/
inductive Fault where
  /-- Raised by step, and only by it, in every state with a recorded model fault: "From a state with `faults ≠ []`, no agent
  has any further step" (60_exceptions.md R321). Safe: the run goes no further (log 9). -/
  | halted (name : FaultName)
deriving DecidableEq, Repr

/-- Why a command has no meaning. -/
inductive Refusal where
  /-- Raised by exec for a command not yet modelled; no arm does so. Safe: the run stops. -/
  | notModelled (mnemonic : String)
deriving DecidableEq, Repr

/-! ## Power-on reset (70_reset_and_hazards.md R360) -/

/-- An empty transfer buffer with a status (R33). -/
def TransferBuffer.empty {Status : Type} (status : Status) : TransferBuffer Status := ⟨0, 0, 0, false, status⟩

/-- One instance after power-on reset (R360). -/
def InstState.reset : InstState where
  cfg := none
  ctrl := Ctrl.resetValue
  stat := Stat.resetValue
  baud := Baud.resetValue
  rdr := 0
  tdr := 0
  matchReg := Match.resetValue
  txShift := none
  lineEn := false
  tx := .empty .uninitialized
  rx := .empty .uninitialized
  cb := ⟨0, 0, 0⟩
  wire := []

/-- The state after power-on reset with `n` instances, parameters `p` and buffer memory `mem`, which R360 leaves to the
surroundings. -/
def State.powerOn (n : Nat) (p : Params) (mem : List Host.Cell) : State where
  inst := List.replicate n .reset
  fg := .idle
  ic := .none
  faults := []
  trace := []
  mem := mem
  params := p
  agenda := []

/-- The machine right after reset: three instances, the default parameters, no byte of memory listed and nothing on the agenda.
DESIGN CHOICE (log 1, log 4, log 7). -/
def State.reset : State := .powerOn 3 .default []

end Sys2Proof.Machine
end

