-- ==== Sys2Proof/Machine/Memory.lean ====
section
/-! DEFINITION. Buffer memory (20_memory.md R80 to R85): the canonical list of (address, byte), one read and one write of a
byte, and the two primitives with their MEM_ADMITS check. -/

namespace Sys2Proof.Machine

/-- What an address nothing has written reads as. DESIGN CHOICE (log 7): the spec leaves the contents at reset open. -/
def Memory.unlisted : Byte := 0

/-- The byte at `a`. -/
def Memory.read : List Host.Cell → Nat → Byte
  | [], _ => Memory.unlisted
  | (b, v) :: m, a => if b = a then v else Memory.read m a

/-- Memory with the byte at `a` made `v`; the list stays canonical. -/
def Memory.write : List Host.Cell → Nat → Byte → List Host.Cell
  | [], a, v => if v = Memory.unlisted then [] else [(a, v)]
  | (b, w) :: m, a, v =>
    if a < b then (if v = Memory.unlisted then (b, w) :: m else (a, v) :: (b, w) :: m)
    else if a = b then (if v = Memory.unlisted then m else (a, v) :: m)
    else (b, w) :: Memory.write m a v

/-- The canonical form: addresses strictly rising, each a 32-bit address, no byte equal to what an unlisted address reads as. -/
abbrev Memory.wf (m : List Host.Cell) : Prop :=
  m.Pairwise (fun c d => c.1 < d.1) ∧ ∀ c ∈ m, c.1 < 2 ^ 32 ∧ c.2 ≠ Memory.unlisted

/-- MEM_ADMITS (00_scope.md R12): `a` is a 32-bit address and lies in an admitted range (log 5). -/
def Params.admits (p : Params) (a : Nat) : Bool :=
  decide (a < 2 ^ 32) && p.regions.any fun r => decide (r.base ≤ a) && decide (a < r.base + r.size)

/-- `m[a]`, whether admitted or not: what the host reads there (20_memory.md R91). -/
def State.byteAt (s : State) (a : Nat) : Byte := Memory.read s.mem a

/-- `MemRead(a, 1)` (R81); `none` is an access MEM_ADMITS refuses. -/
def State.memRead (s : State) (a : Nat) : Option Byte :=
  if Params.admits s.params a then some (s.byteAt a) else none

/-- `MemWrite(a, 1, v)` (R81); `none` is an access MEM_ADMITS refuses. -/
def State.memWrite (s : State) (a : Nat) (v : Byte) : Option State :=
  if Params.admits s.params a then some { s with mem := Memory.write s.mem a v } else none

end Sys2Proof.Machine
end

