-- ==== Sys2Proof/Machine/Operands.lean ====
section
/-! DEFINITION. Operand forms: the configuration word and its fields (30_encoding.md R116), the effective width, stride and mask
(41_framing_codec.md R160, R161), the width read back from CTRL (R164), and the codes of results and statuses (R113 to R115). -/

namespace Sys2Proof.Machine

/-! ## Widths -/

/-- The nominal width in bits. -/
def Width.bits : Width → Nat
  | .w7 => 7
  | .w8 => 8
  | .w9 => 9
  | .w10 => 10

/-- effw (R160): 7 to 10 on every initialized instance, since INIT refuses width 10 with parity. -/
def effw (c : UartConfig) : Nat := c.width.bits + (if c.parity ≠ .disabled then 1 else 0)

/-- Buffer bytes per character at effective width `e` (R161). -/
def stride (e : Nat) : Nat := if e ≤ 8 then 1 else 2

/-- The character mask at effective width `e` (R161): 0x7F, 0xFF, 0x1FF, 0x3FF. -/
def mask (e : Nat) : Nat := 2 ^ e - 1

/-- effwCTRL (R164): the effective width the line side reads back from the width selects. -/
def effwCtrl (ctrl : Word) : Nat :=
  if bit ctrl Ctrl.m7 then 7 else if bit ctrl Ctrl.m then 9 else if bit ctrl Ctrl.m10 then 10 else 8

/-- CTRL with the width selects and the parity fields INIT programs (R164). -/
def withFraming (ctrl : Word) (c : UartConfig) : Word :=
  let ctrl := setBit ctrl Ctrl.m7 (effw c = 7)
  let ctrl := setBit ctrl Ctrl.m (effw c = 9)
  let ctrl := setBit ctrl Ctrl.m10 (effw c = 10)
  let ctrl := setBit ctrl Ctrl.pe (c.parity ≠ .disabled)
  setBit ctrl Ctrl.pt (c.parity = .odd)

/-! ## The configuration word (30_encoding.md R116) -/

/-- WCODE. -/
def Width.ofCode : Nat → Width
  | 0 => .w7
  | 1 => .w8
  | 2 => .w9
  | _ => .w10

/-- PCODE; 3 is reserved. -/
def Parity.ofCode : Nat → Option Parity
  | 0 => some .disabled
  | 1 => some .even
  | 2 => some .odd
  | _ => none

/-- The configuration INIT's operands describe, the checks of 42_configuration_ops.md R182 in their order; `none` is
InvalidArgument. -/
def decodeConfig (arg0 arg1 : Word) : Option UartConfig :=
  if bit arg0 31 = false then none
  else if slice arg0 30 6 ≠ 0 then none
  else
    match Parity.ofCode (slice arg0 3 2) with
    | none => none
    | some parity =>
      if arg1 = 0 then none
      else
        let width := Width.ofCode (slice arg0 1 0)
        if width = .w10 ∧ parity ≠ .disabled then none
        else some {
          width := width
          parity := parity
          stop := if bit arg0 4 then .two else .one
          baud := arg1
          clk := if bit arg0 5 then .fast else .slow }

/-- The configuration word of a configuration, with VALID set and the reserved bits 0: what the assembler writes for a symbolic
INIT (30_encoding.md R116, R121). -/
def configWord (c : UartConfig) : Word :=
  let wcode := match c.width with | .w7 => 0 | .w8 => 1 | .w9 => 2 | .w10 => 3
  let pcode := match c.parity with | .disabled => 0 | .even => 1 | .odd => 2
  let scode := match c.stop with | .one => 0 | .two => 1
  let ccode := match c.clk with | .slow => 0 | .fast => 1
  BitVec.ofNat 32 (wcode + pcode * 2 ^ 2 + scode * 2 ^ 4 + ccode * 2 ^ 5 + 2 ^ 31)

/-! ## Result packets (30_encoding.md R112 to R115) -/

/-- The result codes (R113). -/
inductive ResultCode where
  | ready
  | busy
  | invalidArgument
  | notReady
deriving DecidableEq, Repr

def ResultCode.code : ResultCode → Nat
  | .ready => 0
  | .busy => 1
  | .invalidArgument => 2
  | .notReady => 3

/-- The error-kind codes (R115). -/
def errCode : ErrKind → Nat
  | .overrun => 0
  | .framing => 1
  | .parity => 2
  | .noise => 3

/-- The status codes of the receive direction (R114): Error(k) is 3 plus the kind's code. -/
def RxStatus.code : RxStatus → Nat
  | .uninitialized => 0
  | .ready => 1
  | .busy => 2
  | .error kind => 3 + errCode kind

/-- The status codes of the transmit direction (R114). -/
def TxStatus.code : TxStatus → Nat
  | .uninitialized => 0
  | .ready => 1
  | .busy => 2

/-- The result packet with result code `code`, status code `status` and OUT1 `out` (R112); P0[31:16] is 0. -/
def resultPacket (code : ResultCode) (status : Nat) (out : Word) : ResultPacket :=
  ⟨BitVec.ofNat 32 (code.code + status * 2 ^ 8), out⟩

/-- The status GET_TX_STATUS reports (42_configuration_ops.md R192). -/
def visibleTx (u : InstState) : TxStatus :=
  if u.cfg = none then .uninitialized else if u.tx.busy then .busy else u.tx.status

/-- The status GET_RX_STATUS reports (42_configuration_ops.md R193). -/
def visibleRx (u : InstState) : RxStatus :=
  if u.cfg = none then .uninitialized else if u.rx.busy then .busy else u.rx.status

end Sys2Proof.Machine
end

