-- ==== Sys2Proof/Machine/Codec.lean ====
section
/-! DEFINITION. The framing codec (41_framing_codec.md R162, R163): one character between buffer memory and a value. The
answer `none` is an access MEM_ADMITS refuses, with nothing done: the step that asked is stuck (20_memory.md R81). -/

namespace Sys2Proof.Machine

/-- CodecLoad(a, e) (R162), little-endian (20_memory.md R83). -/
def State.codecLoad (s : State) (a e : Nat) : Option Nat :=
  if stride e = 1 then
    (s.memRead a).map fun b => b.toNat &&& mask e
  else
    (s.memRead a).bind fun lo =>
      (s.memRead (a + 1)).map fun hi => (lo.toNat ||| (hi.toNat <<< 8)) &&& mask e

/-- CodecStore(a, v, e) (R163). -/
def State.codecStore (s : State) (a v e : Nat) : Option State :=
  if stride e = 1 then
    s.memWrite a (BitVec.ofNat 8 (v &&& mask e))
  else
    (s.memWrite a (BitVec.ofNat 8 (v &&& 0xFF))).bind fun t =>
      t.memWrite (a + 1) (BitVec.ofNat 8 ((v >>> 8) &&& (mask e >>> 8)))

end Sys2Proof.Machine
end

