-- ==== Sys2Proof/Machine/Divisor.lean ====
section
/-! DEFINITION. The divisor search (40_divisor_search.md R140 to R149) and ProgramBaud (R146). Exact natural arithmetic. -/

namespace Sys2Proof.Machine

/-- The clock's frequency in Hz (00_scope.md R6). -/
def Clock.hz : Clock → Nat
  | .slow => 8000000
  | .fast => 48000000

/-- `|a − b|` (00_scope.md R14). -/
def absDiff (a b : Nat) : Nat := if a ≤ b then b - a else a - b

/-- `clamp(x, lo, hi)` (00_scope.md R14). -/
def clamp (x lo hi : Nat) : Nat := max lo (min hi x)

/-- The divider of the candidate for ratio `r` (R141). -/
def candidateD (clk baud r : Nat) : Nat := clamp (clk / (baud * r)) 1 8191

/-- The achieved baud of the candidate for ratio `r` (R141). -/
def candidateAch (clk baud r : Nat) : Nat := clk / (candidateD clk baud r * r)

/-- The error of the candidate for ratio `r` (R141). -/
def candidateErr (clk baud r : Nat) : Nat := absDiff baud (candidateAch clk baud r)

/-- One turn of the search's loop: the better of the best ratio so far and `r`, only a strictly smaller error replacing
it (R142). -/
def betterRatio (clk baud best r : Nat) : Nat :=
  if candidateErr clk baud r < candidateErr clk baud best then r else best

/-- The ratio BaseSearch returns: 4, then 5 to 32 in increasing order (R142). -/
def bestRatio (clk baud : Nat) : Nat := (List.range' 5 28).foldl (betterRatio clk baud) 4

/-- BaseSearch: the ratio R and its divider D (R142). -/
def baseSearch (clk baud : Nat) : Nat × Nat := (bestRatio clk baud, candidateD clk baud (bestRatio clk baud))

/-- DivisorSearch for instance `i`, with the override of OSR16_INSTANCE (R144). -/
def divisorSearch (osr16 : Option Nat) (clk baud i : Nat) : Nat × Nat :=
  if osr16 = some i then (16, candidateD clk baud 16) else baseSearch clk baud

/-- ProgramBaud: BAUD with OSR, SBR and BOTHEDGE written for configuration `c` of instance `i` (R145, R146). -/
def programBaud (p : Params) (i : Nat) (c : UartConfig) (baud : Word) : Word :=
  let rd := divisorSearch p.osr16 c.clk.hz c.baud.toNat i
  setBit (Baud.withSbr (Baud.withOsr baud (rd.1 - 1)) rd.2) Baud.bothEdge (rd.1 < 8)

end Sys2Proof.Machine
end

