-- ==== Sys2Proof/Machine/Flags.lean ====
section
/-! DEFINITION. The flags of STAT and what reads and writes them: the data-register accesses and the clearing of the error flags
(45_line_side.md R291, R292, R300), the interrupt causes (44_interrupt_dispatcher.md R260), the error classifier (R266) and
the parity computation (45_line_side.md R295). -/

namespace Sys2Proof.Machine

/-! ## Data register -/

/-- DataWrite(i, v) (R291). -/
def dataWrite (u : InstState) (v : Nat) : InstState :=
  { u with
    tdr := BitVec.ofNat 10 v
    stat := setBit (setBit u.stat Stat.tdre false) Stat.tc false }

/-- What DataRead(i) returns (R292). -/
def dataReadValue (u : InstState) : Nat := u.rdr.toNat

/-- The instance after DataRead(i): RDRF is clear, RDR keeps its value (R292). -/
def dataRead (u : InstState) : InstState :=
  { u with stat := setBit u.stat Stat.rdrf false }

/-- ClearErrorFlags(i) (R300). -/
def clearErrorFlags (u : InstState) : InstState :=
  { u with stat := setBit (setBit (setBit (setBit u.stat Stat.pf false) Stat.fe false) Stat.nf false) Stat.or false }

/-! ## Interrupt causes (R260) -/

/-- rxReady(i). -/
def rxReady (u : InstState) : Bool := bit u.stat Stat.rdrf && bit u.ctrl Ctrl.rie

/-- txReady(i). -/
def txReady (u : InstState) : Bool := bit u.stat Stat.tdre && bit u.ctrl Ctrl.tie

/-- errAny(i). -/
def errAny (u : InstState) : Bool :=
  (bit u.stat Stat.or && bit u.ctrl Ctrl.orie) || (bit u.stat Stat.nf && bit u.ctrl Ctrl.neie) ||
    (bit u.stat Stat.fe && bit u.ctrl Ctrl.feie) || (bit u.stat Stat.pf && bit u.ctrl Ctrl.peie)

/-- request(i). -/
def request (u : InstState) : Bool := rxReady u || txReady u || errAny u

/-- CTRL with the four error-interrupt enables made `b` (43_transfer_ops.md R226, R228; 44_interrupt_dispatcher.md R263, R265). -/
def withErrorEnables (ctrl : Word) (b : Bool) : Word :=
  setBit (setBit (setBit (setBit ctrl Ctrl.orie b) Ctrl.neie b) Ctrl.feie b) Ctrl.peie b

/-! ## Error classifier (R266) -/

/-- The STAT bit of an error kind. -/
def flagOf : ErrKind → Nat
  | .overrun => Stat.or
  | .framing => Stat.fe
  | .parity => Stat.pf
  | .noise => Stat.nf

/-- Classify: the first kind of the priority whose flag is set; `none` where no flag is set, which R266 leaves undefined. -/
def classify (priority : List ErrKind) (stat : Word) : Option ErrKind :=
  priority.find? fun kind => bit stat (flagOf kind)

/-! ## Parity (R295) -/

/-- The number of 1 bits of a value of at most 32 bits (00_scope.md R14). -/
def popcount (v : Nat) : Nat := (List.range 32).countP v.testBit

/-- ParityBit(d, PT). -/
def parityBit (d : Nat) (pt : Bool) : Bool := (popcount d % 2 == 1) ^^ pt

end Sys2Proof.Machine
end

