-- ==== Sys2Proof/Machine/Ops.lean ====
section
/-! DEFINITION. The shared operations: the issuing context, returning a result (30_encoding.md R112), raising a model fault
(60_exceptions.md R321), entering a callback handler and returning from one (44_interrupt_dispatcher.md R267,
60_exceptions.md R327 to R329), the checks every command shares (42_configuration_ops.md R180, R181; 43_transfer_ops.md
R220), and ResetRegisters (42_configuration_ops.md R183). -/

namespace Sys2Proof.Machine

/-- The outcome of a step of the block. -/
abbrev Result := Host.Outcome State Fault Refusal

/-- The context a command executes in: IC exactly while a handler is active, since FG has no step then (60_exceptions.md
R328, R330, R332; log 3). -/
def State.ctx (s : State) : Ctx :=
  match s.ic with
  | .none => .fg
  | .active _ _ _ => .ic

/-- Instance `i` replaced. -/
def State.setInst (s : State) (i : Nat) (u : InstState) : State := { s with inst := s.inst.set i u }

/-- The finishing of a command: its result packet goes to `trace` (30_encoding.md R112). -/
def State.finishWith (s : State) (w0 : Word) (packet : ResultPacket) : State :=
  { s with trace := s.trace ++ [.result s.ctx w0 packet] }

/-- `return code`, for every command but the status queries. -/
def State.finish (s : State) (w0 : Word) (code : ResultCode) : State :=
  s.finishWith w0 (resultPacket code 0 0)

/-- `raise Fault(name)`: the name is appended and nothing else changes (60_exceptions.md R321). -/
def State.raiseFault (s : State) (name : FaultName) : State := { s with faults := s.faults ++ [name] }

/-! ## Entering and leaving a callback handler -/

/-- The slot `fire` reads for an event (44_interrupt_dispatcher.md R267). -/
def CallbackSlots.forEvent (cb : CallbackSlots) : CallbackEvent → Word
  | .txDone => cb.txDone
  | .rxDone => cb.rxDone
  | .err _ => cb.err

/-- HANDLER(h, ev) (00_scope.md R13) for an event of instance `i`, which the event carries (92_eei_decisions.md D34): the first
entry listed for the instance; a handler not listed issues no command (log 6). -/
def Params.handler (p : Params) (i : Nat) (h : Word) (ev : CallbackEvent) : List Packet :=
  match p.handlers.find? fun entry => entry.inst.all (· == i) && decide (entry.handle = h ∧ entry.event = ev) with
  | none => []
  | some entry => entry.commands

/-- `fire(i, ev)` (44_interrupt_dispatcher.md R267): the only entry into interrupt context. It logs the firing, and where the
slot `h` is not empty it starts the handler. Nothing is saved and no mode or mask changes (60_exceptions.md R327). -/
def State.fire (s : State) (i : Nat) (h : Word) (ev : CallbackEvent) : State :=
  { s with
    trace := s.trace ++ [.callback i ev h]
    ic := if h = 0 then s.ic else .active i ev (Params.handler s.params i h ev) }

/-- IC_RETURN: the handler has ended; nothing is restored (60_exceptions.md R328, R329). -/
def State.icReturn (s : State) : State := { s with ic := .none }

/-! ## Checks -/

/-- FG is in a blocking send on instance `i`. -/
def FgState.sendsOn : FgState → Nat → Bool
  | .sendBlk j _ _ _ _ _, i => j == i
  | .recvBlk _ _ _ _ _, _ => false
  | .idle, _ => false

/-- FG is in a blocking receive on instance `i`. -/
def FgState.receivesOn : FgState → Nat → Bool
  | .sendBlk _ _ _ _ _ _, _ => false
  | .recvBlk j _ _ _ _, i => j == i
  | .idle, _ => false

/-- active(i, tx) (43_transfer_ops.md R220). -/
def State.txActive (s : State) (i : Nat) (u : InstState) : Bool := u.tx.busy || s.fg.sendsOn i

/-- active(i, rx) (43_transfer_ops.md R220). -/
def State.rxActive (s : State) (i : Nat) (u : InstState) : Bool := u.rx.busy || s.fg.receivesOn i

/-- inFlight(i) (10_state.md R50). -/
def State.inFlight (s : State) (i : Nat) (u : InstState) : Bool :=
  u.tx.busy || u.rx.busy || s.fg.sendsOn i || s.fg.receivesOn i

/-- The instance check (42_configuration_ops.md R180), then the rest of the command. On a status query that fails it, P0[15:8]
and P1 are 0: DESIGN CHOICE (log 18), since 30_encoding.md R112 has the queries fill them and there is no instance to report. -/
def State.withInst (s : State) (w0 : Word) (i : Nat) (rest : InstState → Result) : Result :=
  match s.inst[i]? with
  | none => .next (s.finish w0 .invalidArgument)
  | some u => rest u

/-- The instance check and the initialization check (42_configuration_ops.md R180, R181), then the rest of the command. -/
def State.withReady (s : State) (w0 : Word) (i : Nat) (rest : InstState → UartConfig → Result) : Result :=
  s.withInst w0 i fun u =>
    match u.cfg with
    | none => .next (s.finish w0 .notReady)
    | some c => rest u c

/-- ArmChecks (43_transfer_ops.md R220), in its order, then the rest of the command; `active` is active(i, dir). -/
def State.withArm (s : State) (w0 : Word) (i : Nat) (blocking : Bool) (active : State → Nat → InstState → Bool)
    (addr len : Word) (rest : InstState → UartConfig → Result) : Result :=
  if blocking = true ∧ s.ctx = .ic then .next (s.raiseFault .blockingInInterruptContext)
  else
    s.withReady w0 i fun u c =>
      if addr = 0 ∨ len = 0 then .next (s.finish w0 .invalidArgument)
      else if len.toNat % stride (effw c) ≠ 0 then .next (s.finish w0 .invalidArgument)
      else if addr.toNat + len.toNat > 2 ^ 32 then .next (s.finish w0 .invalidArgument)
      else if active s i u then .next (s.finish w0 .busy)
      else rest u c

/-! ## Registers -/

/-- ResetRegisters(i) (42_configuration_ops.md R183): the reset values of 10_state.md R39 to R44. -/
def resetRegisters (u : InstState) : InstState :=
  { u with
    ctrl := Ctrl.resetValue
    stat := Stat.resetValue
    baud := Baud.resetValue
    rdr := 0
    tdr := 0
    matchReg := Match.resetValue
    txShift := none }

/-- The instance with one bit of CTRL written. -/
def setCtrl (u : InstState) (k : Nat) (b : Bool) : InstState := { u with ctrl := setBit u.ctrl k b }

end Sys2Proof.Machine
end

