-- ==== Sys2Proof/Machine/ConfigOps.lean ====
section
/-! DEFINITION. The configuration, control and query commands (42_configuration_ops.md): INIT, DEINIT, SETBAUD, TX_ENABLE,
TX_DISABLE, RX_ENABLE, RX_DISABLE, REG_CALLBACK, REG_ERR_CALLBACK, GET_TX_STATUS, GET_RX_STATUS. Any context may issue each
of them (60_exceptions.md R332). -/

namespace Sys2Proof.Machine

/-- The instance INIT leaves, for an accepted configuration `c` (R182). The callback slots, `lineEn` and `wire` stay. -/
def configured (p : Params) (i : Nat) (c : UartConfig) (u : InstState) : InstState :=
  let r := resetRegisters u
  { r with
    cfg := some c
    ctrl := withFraming r.ctrl c
    baud := programBaud p i c (setBit r.baud Baud.sbns (c.stop = .two))
    tx := .empty .ready
    rx := .empty .ready }

/-- INIT (R182). -/
def execInit (i : Nat) (config baud : Word) (s : State) : Result :=
  let w0 := (Instr.init i config baud).w0
  s.withInst w0 i fun u =>
    match decodeConfig config baud with
    | none => .next (s.finish w0 .invalidArgument)
    | some c =>
      if s.inFlight i u then .next (s.raiseFault .configureDuringTransfer)
      else .next ((s.setInst i (configured s.params i c u)).finish w0 .ready)

/-- The instance DEINIT leaves (R184). -/
def deinitialized (u : InstState) : InstState :=
  { resetRegisters u with
    lineEn := false
    cb := ⟨0, 0, 0⟩
    cfg := none
    tx := .empty .uninitialized
    rx := .empty .uninitialized }

/-- DEINIT (R184): accepted at any time. -/
def execDeinit (i : Nat) (s : State) : Result :=
  let w0 := (Instr.deinit i).w0
  s.withInst w0 i fun u => .next ((s.setInst i (deinitialized u)).finish w0 .ready)

/-- The instance SETBAUD leaves (R185). -/
def rebauded (p : Params) (i : Nat) (c : UartConfig) (baud : Word) (u : InstState) : InstState :=
  let c' := { c with baud := baud }
  { u with cfg := some c', baud := programBaud p i c' u.baud }

/-- SETBAUD (R185). -/
def execSetbaud (i : Nat) (baud : Word) (s : State) : Result :=
  let w0 := (Instr.setbaud i baud).w0
  s.withReady w0 i fun u c =>
    if baud = 0 then .next (s.finish w0 .invalidArgument)
    else if s.inFlight i u then .next (s.raiseFault .baudChangeDuringTransfer)
    else .next ((s.setInst i (rebauded s.params i c baud u)).finish w0 .ready)

/-- The body of the four enable and disable commands: one bit of CTRL (R186 to R189). -/
def writeEnable (w0 : Word) (i k : Nat) (b : Bool) (s : State) : Result :=
  s.withReady w0 i fun u _ => .next ((s.setInst i (setCtrl u k b)).finish w0 .ready)

/-- TX_ENABLE (R186). -/
def execTxEnable (i : Nat) (s : State) : Result := writeEnable (Instr.txEnable i).w0 i Ctrl.te true s

/-- TX_DISABLE (R187). -/
def execTxDisable (i : Nat) (s : State) : Result := writeEnable (Instr.txDisable i).w0 i Ctrl.te false s

/-- RX_ENABLE (R188). -/
def execRxEnable (i : Nat) (s : State) : Result := writeEnable (Instr.rxEnable i).w0 i Ctrl.re true s

/-- RX_DISABLE (R189). -/
def execRxDisable (i : Nat) (s : State) : Result := writeEnable (Instr.rxDisable i).w0 i Ctrl.re false s

/-- The callback slots with one slot written. -/
def CallbackSlots.put (cb : CallbackSlots) (kind : SlotKind) (handle : Word) : CallbackSlots :=
  match kind with
  | .error => { cb with err := handle }
  | .txDone => { cb with txDone := handle }
  | .rxDone => { cb with rxDone := handle }

/-- REG_CALLBACK (R190). -/
def execRegCallback (i : Nat) (kind : SlotKind) (handle : Word) (s : State) : Result :=
  let w0 := (Instr.regCallback i kind handle).w0
  s.withInst w0 i fun u => .next ((s.setInst i { u with cb := u.cb.put kind handle }).finish w0 .ready)

/-- REG_ERR_CALLBACK (R191). -/
def execRegErrCallback (i : Nat) (handle : Word) (s : State) : Result :=
  let w0 := (Instr.regErrCallback i handle).w0
  s.withInst w0 i fun u => .next ((s.setInst i { u with cb := u.cb.put .error handle }).finish w0 .ready)

/-- GET_TX_STATUS (R192). -/
def execGetTxStatus (i : Nat) (s : State) : Result :=
  let w0 := (Instr.getTxStatus i).w0
  s.withInst w0 i fun u => .next (s.finishWith w0 (resultPacket .ready (visibleTx u).code u.tx.progress))

/-- GET_RX_STATUS (R193). -/
def execGetRxStatus (i : Nat) (s : State) : Result :=
  let w0 := (Instr.getRxStatus i).w0
  s.withInst w0 i fun u => .next (s.finishWith w0 (resultPacket .ready (visibleRx u).code u.rx.progress))

end Sys2Proof.Machine
end

