-- ==== Sys2Proof/Machine/TransferOps.lean ====
section
/-! DEFINITION. The transfer commands and the blocking loops (43_transfer_ops.md): SEND_BLOCKING, SEND_ASYNC, RECV_BLOCKING,
RECV_ASYNC, ABORT_SEND, ABORT_RECV, and the FG steps SendBlkData, SendBlkDone, RecvBlkData. -/

namespace Sys2Proof.Machine

/-! ## Sending -/

/-- SEND_BLOCKING: the acceptance command (R221). No result yet. -/
def execSendBlocking (i : Nat) (addr len : Word) (s : State) : Result :=
  let w0 := (Instr.sendBlocking i addr len).w0
  s.withArm w0 i true State.txActive addr len fun u c =>
    .next { s.setInst i (setCtrl u Ctrl.te true) with fg := .sendBlk i addr len (effw c) 0 .waitTdre }

/-- The instance SEND_ASYNC leaves (R223). -/
def armedTx (addr len : Word) (u : InstState) : InstState :=
  { u with
    tx := ⟨addr, len, 0, true, .busy⟩
    ctrl := setBit (setBit u.ctrl Ctrl.te true) Ctrl.tie true
    lineEn := true }

/-- SEND_ASYNC (R223): the result code of a successful arm is Busy. -/
def execSendAsync (i : Nat) (addr len : Word) (s : State) : Result :=
  let w0 := (Instr.sendAsync i addr len).w0
  s.withArm w0 i false State.txActive addr len fun u _ => .next ((s.setInst i (armedTx addr len u)).finish w0 .busy)

/-! ## Receiving -/

/-- A receive status with a pending error cleared (R224). -/
def RxStatus.cleared : RxStatus → RxStatus
  | .error _ => .ready
  | .uninitialized => .uninitialized
  | .ready => .ready
  | .busy => .busy

/-- RECV_BLOCKING: the acceptance command (R224). No result yet. -/
def execRecvBlocking (i : Nat) (addr len : Word) (s : State) : Result :=
  let w0 := (Instr.recvBlocking i addr len).w0
  s.withArm w0 i true State.rxActive addr len fun u c =>
    let u' := { setCtrl u Ctrl.re true with rx := { u.rx with status := u.rx.status.cleared } }
    .next { s.setInst i u' with fg := .recvBlk i addr len (effw c) 0 }

/-- The instance RECV_ASYNC leaves (R226). -/
def armedRx (addr len : Word) (u : InstState) : InstState :=
  { u with
    rx := ⟨addr, len, 0, true, .busy⟩
    ctrl := setBit (setBit (withErrorEnables u.ctrl true) Ctrl.re true) Ctrl.rie true
    lineEn := true }

/-- RECV_ASYNC (R226): the result code of a successful arm is Busy. -/
def execRecvAsync (i : Nat) (addr len : Word) (s : State) : Result :=
  let w0 := (Instr.recvAsync i addr len).w0
  s.withArm w0 i false State.rxActive addr len fun u _ => .next ((s.setInst i (armedRx addr len u)).finish w0 .busy)

/-! ## Aborts -/

/-- The instance ABORT_SEND leaves (R227). -/
def abortedTx (u : InstState) : InstState :=
  { u with
    tx := .empty .ready
    ctrl := setBit (setBit u.ctrl Ctrl.tie false) Ctrl.te false
    stat :=
      let stat := setBit u.stat Stat.tdre true
      if u.txShift = none then setBit stat Stat.tc true else stat }

/-- ABORT_SEND (R227). -/
def execAbortSend (i : Nat) (s : State) : Result :=
  let w0 := (Instr.abortSend i).w0
  s.withReady w0 i fun u _ => .next ((s.setInst i (abortedTx u)).finish w0 .ready)

/-- CTRL with the receive path disabled: RIE, the error enables and RE clear (R228; 44_interrupt_dispatcher.md R263). -/
def withReceiveOff (ctrl : Word) : Word :=
  setBit (withErrorEnables (setBit ctrl Ctrl.rie false) false) Ctrl.re false

/-- The instance ABORT_RECV leaves (R228). -/
def abortedRx (u : InstState) : InstState :=
  { u with
    rx := .empty .ready
    ctrl := withReceiveOff u.ctrl
    stat := setBit u.stat Stat.rdrf false }

/-- ABORT_RECV (R228). -/
def execAbortRecv (i : Nat) (s : State) : Result :=
  let w0 := (Instr.abortRecv i).w0
  s.withReady w0 i fun u _ => .next ((s.setInst i (abortedRx u)).finish w0 .ready)

/-! ## The blocking loops: steps of FG -/

/-- SendBlkData and SendBlkDone are enabled on their flags, RecvBlkData on RDRF (R222, R225), and only while no handler is
active (60_exceptions.md R328). -/
def foregroundEnabled (s : State) : Bool :=
  decide (s.ic = .none) &&
    match s.fg with
    | .idle => false
    | .sendBlk i _ _ _ _ .waitTdre => (s.inst[i]?).any fun u => bit u.stat Stat.tdre
    | .sendBlk i _ _ _ _ .waitTc => (s.inst[i]?).any fun u => bit u.stat Stat.tc
    | .recvBlk i _ _ _ _ => (s.inst[i]?).any fun u => bit u.stat Stat.rdrf

/-- SendBlkData (R222); `none` is stuck. -/
def sendBlkData (i : Nat) (addr len : Word) (e idx : Nat) (u : InstState) (s : State) : Option State :=
  (s.codecLoad (addr.toNat + idx) e).map fun v =>
    { s.setInst i (dataWrite u v) with fg := .sendBlk i addr len e idx .waitTc }

/-- SendBlkDone (R222). The last one is the end of the SEND_BLOCKING command and returns its result (log 11). -/
def sendBlkDone (i : Nat) (addr len : Word) (e idx : Nat) (u : InstState) (s : State) : State :=
  if idx + stride e = len.toNat then
    State.finish { s.setInst i (setCtrl u Ctrl.te false) with fg := .idle } (Instr.sendBlocking i addr len).w0 .ready
  else { s with fg := .sendBlk i addr len e (idx + stride e) .waitTdre }

/-- RecvBlkData (R225); `none` is stuck. The last one returns RECV_BLOCKING's result (log 11). -/
def recvBlkData (i : Nat) (addr len : Word) (e idx : Nat) (u : InstState) (s : State) : Option State :=
  (s.codecStore (addr.toNat + idx) (dataReadValue u) e).map fun t =>
    if idx + stride e = len.toNat then
      State.finish { t.setInst i (setCtrl (dataRead u) Ctrl.re false) with fg := .idle }
        (Instr.recvBlocking i addr len).w0 .ready
    else { t.setInst i (dataRead u) with fg := .recvBlk i addr len e (idx + stride e) }

/-- The next step of FG's blocking loop; `none` is no transition: not enabled, or stuck. -/
def foregroundStep (s : State) : Option State :=
  if foregroundEnabled s then
    match s.fg with
    | .idle => none
    | .sendBlk i addr len e idx .waitTdre => (s.inst[i]?).bind fun u => sendBlkData i addr len e idx u s
    | .sendBlk i addr len e idx .waitTc => (s.inst[i]?).map fun u => sendBlkDone i addr len e idx u s
    | .recvBlk i addr len e idx => (s.inst[i]?).bind fun u => recvBlkData i addr len e idx u s
  else none

end Sys2Proof.Machine
end

