-- ==== Sys2Proof/Machine/Dispatch.lean ====
section
/-! DEFINITION. The meaning of every command, one arm per constructor of Instr (30_encoding.md R118). -/

namespace Sys2Proof.Machine

/-- The command's effect in state `s`, in the context of `s` (log 3). -/
def exec (i : Instr) (s : State) : Host.Outcome State Fault Refusal :=
  match i with
  | .init n config baud => Sys2Proof.Machine.execInit n config baud s
  | .deinit n => Sys2Proof.Machine.execDeinit n s
  | .setbaud n baud => Sys2Proof.Machine.execSetbaud n baud s
  | .sendBlocking n addr len => Sys2Proof.Machine.execSendBlocking n addr len s
  | .sendAsync n addr len => Sys2Proof.Machine.execSendAsync n addr len s
  | .recvBlocking n addr len => Sys2Proof.Machine.execRecvBlocking n addr len s
  | .recvAsync n addr len => Sys2Proof.Machine.execRecvAsync n addr len s
  | .abortSend n => Sys2Proof.Machine.execAbortSend n s
  | .abortRecv n => Sys2Proof.Machine.execAbortRecv n s
  | .txEnable n => Sys2Proof.Machine.execTxEnable n s
  | .txDisable n => Sys2Proof.Machine.execTxDisable n s
  | .rxEnable n => Sys2Proof.Machine.execRxEnable n s
  | .rxDisable n => Sys2Proof.Machine.execRxDisable n s
  | .regCallback n kind handle => Sys2Proof.Machine.execRegCallback n kind handle s
  | .regErrCallback n handle => Sys2Proof.Machine.execRegErrCallback n handle s
  | .getTxStatus n => Sys2Proof.Machine.execGetTxStatus n s
  | .getRxStatus n => Sys2Proof.Machine.execGetRxStatus n s

end Sys2Proof.Machine
end

