-- ==== Sys2Proof/Machine/Interrupt.lean ====
section
/-! DEFINITION. The interrupt dispatcher (44_interrupt_dispatcher.md R260 to R270): one invocation services one cause of one
instance. An answer `none` is a stuck step (20_memory.md R81, 60_exceptions.md R322). -/

namespace Sys2Proof.Machine

/-- DISPATCH(i) is enabled (R261). -/
def dispatchEnabled (s : State) (i : Nat) : Bool :=
  decide (s.ic = .none) && (s.inst[i]?).any fun u => u.lineEn && request u

/-- The instance after a receive-ready service that does not complete the transfer (R263). -/
def rxServed (e : Nat) (u : InstState) : InstState :=
  { dataRead u with rx := { u.rx with progress := BitVec.ofNat 32 (u.rx.progress.toNat + stride e) } }

/-- The completion of a receive: the receive path is disabled, Busy becomes Ready, Error(k) is kept (R263). -/
def rxCompleted (u : InstState) : InstState :=
  { u with
    ctrl := withReceiveOff u.ctrl
    rx := { u.rx with busy := false, status := if u.rx.status = .busy then .ready else u.rx.status } }

/-- RxService (R263). In a state no run reaches, where the instance has no configuration or the progress would pass the
length, it raises InvariantBroken (60_exceptions.md R321, log 10). -/
def rxService (i : Nat) (u : InstState) (s : State) : Option State :=
  match u.cfg with
  | none => some (s.raiseFault .invariantBroken)
  | some c =>
    let e := effw c
    if u.rx.len.toNat < u.rx.progress.toNat + stride e then some (s.raiseFault .invariantBroken)
    else
      (s.codecStore (u.rx.addr.toNat + u.rx.progress.toNat) (dataReadValue u) e).map fun t =>
        if u.rx.progress.toNat + stride e = u.rx.len.toNat then
          (t.setInst i (rxCompleted (rxServed e u))).fire i (u.cb.forEvent .rxDone) .rxDone
        else t.setInst i (rxServed e u)

/-- The instance after a transmit-ready service of character `v` that does not complete the transfer (R264). -/
def txServed (e v : Nat) (u : InstState) : InstState :=
  { dataWrite u v with tx := { u.tx with progress := BitVec.ofNat 32 (u.tx.progress.toNat + stride e) } }

/-- The completion of a send: TIE is cleared, TE stays (R264). -/
def txCompleted (u : InstState) : InstState :=
  { u with
    ctrl := setBit u.ctrl Ctrl.tie false
    tx := { u.tx with busy := false, status := .ready } }

/-- TxService (R264); InvariantBroken as in `rxService`. -/
def txService (i : Nat) (u : InstState) (s : State) : Option State :=
  match u.cfg with
  | none => some (s.raiseFault .invariantBroken)
  | some c =>
    let e := effw c
    if u.tx.len.toNat < u.tx.progress.toNat + stride e then some (s.raiseFault .invariantBroken)
    else
      (s.codecLoad (u.tx.addr.toNat + u.tx.progress.toNat) e).map fun v =>
        if u.tx.progress.toNat + stride e = u.tx.len.toNat then
          (s.setInst i (txCompleted (txServed e v u))).fire i (u.cb.forEvent .txDone) .txDone
        else s.setInst i (txServed e v u)

/-- The instance after an error service that reports kind `k` (R265). -/
def errServed (k : ErrKind) (u : InstState) : InstState :=
  { clearErrorFlags u with
    ctrl := withErrorEnables u.ctrl false
    rx := if u.rx.busy then { u.rx with status := .error k } else u.rx }

/-- ErrService (R265). Classify is undefined where no error flag is set (R266); that raises InvariantBroken
(93_implementation_defined.md U16, log 10). -/
def errService (i : Nat) (u : InstState) (s : State) : State :=
  match classify s.params.errPriority u.stat with
  | none => s.raiseFault .invariantBroken
  | some k => (s.setInst i (errServed k u)).fire i (u.cb.forEvent (.err k)) (.err k)

/-- The service of the first cause that holds: receive-ready, transmit-ready, error (R262). -/
def service (i : Nat) (u : InstState) (s : State) : Option State :=
  if rxReady u then rxService i u s
  else if txReady u then txService i u s
  else some (errService i u s)

/-- DISPATCH(i); `none` is no transition: not enabled (R261), or stuck. -/
def dispatchStep (i : Nat) (s : State) : Option State :=
  if dispatchEnabled s i then (s.inst[i]?).bind fun u => service i u s else none

end Sys2Proof.Machine
end

