-- ==== Sys2Proof/Machine/Line.lean ====
section
/-! DEFINITION. The line side LINE(i) (45_line_side.md R290 to R303): the transmit pipeline and the receive input. -/

namespace Sys2Proof.Machine

/-! ## Transmit pipeline -/

/-- TX_LOAD(i) is enabled (R293). -/
def txLoadEnabled (u : InstState) : Bool :=
  bit u.ctrl Ctrl.te && !bit u.stat Stat.tdre && u.txShift.isNone

/-- The data bits of a frame: the effective width less the parity position (R293). -/
def dataBits (ctrl : Word) : Nat := effwCtrl ctrl - (if bit ctrl Ctrl.pe then 1 else 0)

/-- The frame TX_LOAD makes of TDR: the data bits, the generated parity and the stop bits (R293, R295). -/
def frameOf (u : InstState) : TxFrame :=
  let w := dataBits u.ctrl
  let data := u.tdr.toNat &&& (2 ^ w - 1)
  { data := data
    dataBits := w
    parity := if bit u.ctrl Ctrl.pe then some (parityBit data (bit u.ctrl Ctrl.pt)) else none
    stop := if bit u.baud Baud.sbns then .two else .one }

/-- The instance after TX_LOAD (R293). -/
def txLoaded (u : InstState) : InstState :=
  { u with txShift := some (frameOf u), stat := setBit u.stat Stat.tdre true }

/-- TX_LOAD(i); `none`: not enabled. -/
def txLoadStep (i : Nat) (s : State) : Option State :=
  (s.inst[i]?).bind fun u => if txLoadEnabled u then some (s.setInst i (txLoaded u)) else none

/-- The instance after TX_SHIFT_DONE with frame `f` in the shift register (R294). -/
def txShifted (f : TxFrame) (u : InstState) : InstState :=
  { u with
    wire := u.wire ++ [f]
    txShift := none
    stat := if bit u.stat Stat.tdre then setBit u.stat Stat.tc true else u.stat }

/-- TX_SHIFT_DONE(i); `none`: not enabled. -/
def txShiftDoneStep (i : Nat) (s : State) : Option State :=
  (s.inst[i]?).bind fun u => u.txShift.map fun f => s.setInst i (txShifted f u)

/-! ## Receive input -/

/-- The value RX_FRAME stores: the received bits cut to the effective width (R296). -/
def rxValue (ctrl : Word) (f : RxFrame) : Nat := f.bits.toNat &&& (2 ^ effwCtrl ctrl - 1)

/-- The received parity bit differs from the parity of the received data bits (R297). -/
def parityWrong (ctrl : Word) (v : Nat) : Bool :=
  bit ctrl Ctrl.pe &&
    (parityBit (v &&& (2 ^ (effwCtrl ctrl - 1) - 1)) (bit ctrl Ctrl.pt) != v.testBit (effwCtrl ctrl - 1))

/-- `stat` with bit `k` set where `b` holds, and as it was otherwise: the error flags are sticky (R296). -/
def raiseFlag (stat : Word) (k : Nat) (b : Bool) : Word := if b then setBit stat k true else stat

/-- The instance after RX_FRAME (R296, R298, R299). -/
def rxReceived (f : RxFrame) (u : InstState) : InstState :=
  if bit u.ctrl Ctrl.re = false then u
  else if bit u.stat Stat.rdrf then { u with stat := setBit u.stat Stat.or true }
  else
    let v := rxValue u.ctrl f
    let stat := setBit u.stat Stat.rdrf true
    let stat := raiseFlag stat Stat.fe (!f.stopOk)
    let stat := raiseFlag stat Stat.nf f.noisy
    { u with
      rdr := BitVec.ofNat 10 v
      stat := raiseFlag stat Stat.pf (parityWrong u.ctrl v) }

/-- RX_FRAME(i, f), which the environment may take at any time (R296); `none`: there is no instance `i`. -/
def rxFrameStep (i : Nat) (f : RxFrame) (s : State) : Option State :=
  (s.inst[i]?).map fun u => s.setInst i (rxReceived f u)

end Sys2Proof.Machine
end

