-- ==== Sys2Proof/Machine/Events.lean ====
section
/-! DEFINITION. The steps of the agents (00_scope.md R18), each offered as an entry of the agenda: issuing a packet
(30_encoding.md R110, R119), the handler's steps (60_exceptions.md R328), FG's loop, the dispatcher, the line side, the host's
writes (20_memory.md R91). -/

namespace Sys2Proof.Machine

/-- Delivering a packet: an illegal one answers InvalidArgument and changes nothing else (30_encoding.md R119); a legal one
is executed. -/
def runPacket (p : Packet) (s : State) : Result :=
  match decode p with
  | .error _ => .next (s.finish p.w0 .invalidArgument)
  | .ok c => exec c s

/-- FG may issue a command: no handler is active and no blocking loop runs (10_state.md R45, 60_exceptions.md R328). -/
def commandEnabled (s : State) : Bool := decide (s.ic = .none) && decide (s.fg = .idle)

/-- IC_CMD or IC_RETURN (60_exceptions.md R328). The packet is off `pending` before it executes (log 8). -/
def interruptStep (s : State) : Option Result :=
  match s.ic with
  | .none => none
  | .active i ev (c :: rest) => some (runPacket c { s with ic := .active i ev rest })
  | .active _ _ [] => some (.next s.icReturn)

/-- The transition an event makes; `none`: no transition, because the event is not enabled or is stuck (20_memory.md R81). -/
def offer (ev : Event) (s : State) : Option Result :=
  match ev with
  | .command p => if commandEnabled s then some (runPacket p s) else none
  | .foreground => (foregroundStep s).map .next
  | .interrupt => interruptStep s
  | .dispatch i => (dispatchStep i s).map .next
  | .txLoad i => (txLoadStep i s).map .next
  | .txShiftDone i => (txShiftDoneStep i s).map .next
  | .rxFrame i f => (rxFrameStep i f s).map .next
  | .hostWrite a v => some (.next { s with mem := Memory.write s.mem a.toNat v })

/-- Taking the agenda's next entry off and taking the step it names; an entry with no transition lapses (log 2). -/
def advance (ev : Event) (rest : List Event) (s : State) : Result :=
  match offer ev { s with agenda := rest } with
  | some r => r
  | none => .next { s with agenda := rest }

/-- The state with packet `p` as the next thing a step executes: the next packet of the active handler, or else FG's next
command, with what its delivery needs (no fault recorded, FG idle where FG issues it) (log 12). -/
def State.withPacket (s : State) (p : Packet) : State :=
  match s.ic with
  | .active i ev pending =>
    { s with ic := .active i ev (p :: pending), faults := [], agenda := .interrupt :: s.agenda }
  | .none => { s with fg := .idle, faults := [], agenda := .command p :: s.agenda }

end Sys2Proof.Machine
end

