-- ==== Sys2Proof/Machine/Step.lean ====
section
/-! DEFINITION. One step of the machine. -/

namespace Sys2Proof.Machine

/-- One step: with a model fault recorded no agent has a step (60_exceptions.md R321, log 9); with nothing on the agenda no
agent takes one; otherwise the agenda's next entry is taken (log 1). -/
def step (s : State) : Host.Outcome State Fault Refusal :=
  match s.faults with
  | name :: _ => .fault (.halted name)
  | [] =>
    match s.agenda with
    | [] => .next s
    | ev :: rest => advance ev rest s

/-- The state in which the next step delivers the packet whose numbered bits are `w` (log 12). -/
def State.withFetchWord (s : State) (nbits w : Nat) : State := s.withPacket (tablePacket nbits w)

end Sys2Proof.Machine
end

