-- ==== Sys2Proof/Laws/Bits.lean ====
section
/-! SUPPORT. What the writes of a bit and of a field do, read back through `bit` and `slice`. -/

namespace Sys2Proof.Machine

/-- A written bit reads back, every other bit reads as before. -/
theorem getLsbD_setBit (w : Word) (k : Nat) (b : Bool) (j : Nat) (hk : k < 32) :
    (setBit w k b).getLsbD j = if j = k then b else w.getLsbD j := by
  unfold setBit
  by_cases hj : j < 32
  · by_cases h : j = k
    · subst h
      cases b <;> simp [hj]
    · have h' : ¬ k = j := fun e => h e.symm
      cases b
      · simp [h, h']
        intro; exact hj
      · simp [h, h']
  · have hb : w.getLsbD j = false := BitVec.getLsbD_of_ge w j (by omega)
    have h : ¬ j = k := by omega
    cases b
    · simp [h, hb]
    · have h' : ¬ k = j := by omega
      simp [h, h', hb]

/-- The same read with the bit index known to be in range, the form simp brings a bit of a literal index into. -/
theorem getElem_setBit (w : Word) (k : Nat) (b : Bool) (j : Nat) (hj : j < 32) (hk : k < 32) :
    (setBit w k b)[j] = if j = k then b else w[j] := by
  simpa [BitVec.getLsbD_eq_getElem hj] using getLsbD_setBit w k b j hk

/-- The bit just written. -/
theorem bit_setBit_same (w : Word) (k : Nat) (b : Bool) (hk : k < 32) : bit (setBit w k b) k = b := by
  simp [getLsbD_setBit w k b k hk]

/-- A bit other than the one written. -/
theorem bit_setBit_other (w : Word) (k : Nat) (b : Bool) (j : Nat) (hk : k < 32) (h : j ≠ k) :
    bit (setBit w k b) j = bit w j := by
  simp [getLsbD_setBit w k b j hk, h]

/-- A slice as the bits it is made of. -/
theorem testBit_slice (w : Word) (hi lo j : Nat) :
    (slice w hi lo).testBit j = (decide (j < hi - lo + 1) && w.getLsbD (lo + j)) := by
  simp [slice, Nat.testBit_mod_two_pow, Nat.testBit_shiftRight, BitVec.getLsbD]

/-- A bit written outside a slice leaves the slice as it was. -/
theorem slice_setBit (w : Word) (k : Nat) (b : Bool) (hi lo : Nat) (hk : k < 32) (h : k < lo ∨ hi < k) (hl : lo ≤ hi) :
    slice (setBit w k b) hi lo = slice w hi lo := by
  apply Nat.eq_of_testBit_eq
  intro j
  rw [testBit_slice, testBit_slice, getLsbD_setBit _ _ _ _ hk]
  by_cases hj : j < hi - lo + 1
  · have : lo + j ≠ k := by omega
    simp [this]
  · simp [hj]

/-- The bits of a register with a field written. -/
theorem getLsbD_setField (w : Word) (hi lo v j : Nat) (hh : hi < 32) (hl : lo ≤ hi) :
    (setField w hi lo v).getLsbD j = if lo ≤ j ∧ j ≤ hi then v.testBit (j - lo) else w.getLsbD j := by
  unfold setField
  simp only [BitVec.getLsbD_or, BitVec.getLsbD_and, BitVec.getLsbD_not, BitVec.getLsbD_ofNat, Nat.testBit_shiftLeft,
    Nat.testBit_mod_two_pow, Nat.testBit_two_pow_sub_one]
  by_cases hj : j < 32
  · by_cases h1 : lo ≤ j
    · by_cases h2 : j ≤ hi
      · have h3 : j - lo < hi - lo + 1 := by omega
        simp [hj, h1, h2, h3]
      · have h3 : ¬ j - lo < hi - lo + 1 := by omega
        simp [hj, h1, h2, h3]
    · simp [hj, h1]
  · have hb : w.getLsbD j = false := BitVec.getLsbD_of_ge w j (by omega)
    have h : ¬ (lo ≤ j ∧ j ≤ hi) := by omega
    simp [hj, h, hb]

/-- The field just written reads back. -/
theorem slice_setField_same (w : Word) (hi lo v : Nat) (hh : hi < 32) (hl : lo ≤ hi) :
    slice (setField w hi lo v) hi lo = v % 2 ^ (hi - lo + 1) := by
  apply Nat.eq_of_testBit_eq
  intro j
  rw [testBit_slice, getLsbD_setField _ _ _ _ _ hh hl, Nat.testBit_mod_two_pow]
  by_cases hj : j < hi - lo + 1
  · have : lo + j ≤ hi := by omega
    simp [hj, this]
  · simp [hj]

/-- A field written outside a slice leaves the slice as it was. -/
theorem slice_setField_other (w : Word) (hi lo v hi' lo' : Nat) (hh : hi < 32) (hl : lo ≤ hi) (hl' : lo' ≤ hi')
    (h : hi < lo' ∨ hi' < lo) : slice (setField w hi lo v) hi' lo' = slice w hi' lo' := by
  apply Nat.eq_of_testBit_eq
  intro j
  rw [testBit_slice, testBit_slice, getLsbD_setField _ _ _ _ _ hh hl]
  by_cases hj : j < hi' - lo' + 1
  · have : ¬ (lo ≤ lo' + j ∧ lo' + j ≤ hi) := by omega
    rw [if_neg this]
  · simp [hj]

/-- OSR reads back after it is written. -/
theorem osr_withOsr (w : Word) (r : Nat) (h : r < 32) : Baud.osr (Baud.withOsr w r) = r := by
  unfold Baud.osr Baud.withOsr
  rw [slice_setField_same _ _ _ _ (by decide) (by decide)]
  exact Nat.mod_eq_of_lt h

/-- SBR reads back after it is written. -/
theorem sbr_withSbr (w : Word) (d : Nat) (h : d < 8192) : Baud.sbr (Baud.withSbr w d) = d := by
  unfold Baud.sbr Baud.withSbr
  rw [slice_setField_same _ _ _ _ (by decide) (by decide)]
  exact Nat.mod_eq_of_lt h

/-- Writing SBR leaves OSR. -/
theorem osr_withSbr (w : Word) (d : Nat) : Baud.osr (Baud.withSbr w d) = Baud.osr w :=
  slice_setField_other _ _ _ _ _ _ (by decide) (by decide) (by decide) (by decide)

/-- Writing OSR leaves SBR. -/
theorem sbr_withOsr (w : Word) (r : Nat) : Baud.sbr (Baud.withOsr w r) = Baud.sbr w :=
  slice_setField_other _ _ _ _ _ _ (by decide) (by decide) (by decide) (by decide)

/-- Writing BOTHEDGE leaves OSR. -/
theorem osr_setBothEdge (w : Word) (b : Bool) : Baud.osr (setBit w Baud.bothEdge b) = Baud.osr w :=
  slice_setBit _ _ _ _ _ (by decide) (by decide) (by decide)

/-- Writing BOTHEDGE leaves SBR. -/
theorem sbr_setBothEdge (w : Word) (b : Bool) : Baud.sbr (setBit w Baud.bothEdge b) = Baud.sbr w :=
  slice_setBit _ _ _ _ _ (by decide) (by decide) (by decide)

end Sys2Proof.Machine
end

