-- ==== Sys2Proof/Laws/Divisor.lean ====
section
/-! SUPPORT. The divisor search: the bounds of a candidate's divider and what one turn of the loop does. -/

namespace Sys2Proof.Machine

/-- Every candidate's divider is in 1..8191 (40_divisor_search.md R141). -/
theorem candidateD_bounds (clk baud r : Nat) : 1 ≤ candidateD clk baud r ∧ candidateD clk baud r ≤ 8191 := by
  unfold candidateD clamp
  omega

/-- One turn of the loop keeps one of the two ratios, and the kept one's error is at most either's. -/
theorem betterRatio_cases (clk baud best r : Nat) :
    (betterRatio clk baud best r = r ∧ candidateErr clk baud r < candidateErr clk baud best) ∨
      (betterRatio clk baud best r = best ∧ candidateErr clk baud best ≤ candidateErr clk baud r) := by
  unfold betterRatio
  split
  · exact .inl ⟨rfl, ‹_›⟩
  · exact .inr ⟨rfl, by omega⟩

end Sys2Proof.Machine
end

