-- ==== Sys2Proof/Laws/Memory.lean ====
section
/-! SUPPORT. Buffer memory: every operation keeps the canonical form, and what a write and the primitives do. -/

namespace Sys2Proof.Machine

/-- An entry of memory after a write is the written byte or an entry from before. -/
theorem Memory.mem_write {m : List Host.Cell} {a : Nat} {v : Byte} {c : Host.Cell} (h : c ∈ Memory.write m a v) :
    (c = (a, v) ∧ v ≠ Memory.unlisted) ∨ c ∈ m := by
  induction m with
  | nil =>
    unfold Memory.write at h
    split at h <;> simp_all
  | cons d m ih =>
    obtain ⟨b, w⟩ := d
    unfold Memory.write at h
    split at h
    · split at h <;> simp_all
    · split at h
      · split at h
        · exact .inr (List.mem_cons_of_mem _ h)
        · simp_all; tauto
      · rcases List.mem_cons.mp h with h | h
        · exact .inr (by simp [h])
        · rcases ih h with h | h
          · exact .inl h
          · exact .inr (List.mem_cons_of_mem _ h)

/-- A write keeps the canonical form. -/
theorem Memory.wf_write {m : List Host.Cell} (hm : Memory.wf m) {a : Nat} (ha : a < 2 ^ 32) (v : Byte) :
    Memory.wf (Memory.write m a v) := by
  refine ⟨?_, ?_⟩
  · obtain ⟨hm, -⟩ := hm
    induction m with
    | nil => unfold Memory.write; split <;> simp
    | cons d m ih =>
      obtain ⟨b, w⟩ := d
      obtain ⟨h1, h2⟩ := List.pairwise_cons.mp hm
      unfold Memory.write
      split
      · split
        · exact hm
        · refine List.pairwise_cons.mpr ⟨fun c hc => ?_, hm⟩
          rcases List.mem_cons.mp hc with rfl | hc
          · assumption
          · exact Nat.lt_trans ‹_› (h1 c hc)
      · split
        · split
          · exact h2
          · refine List.pairwise_cons.mpr ⟨fun c hc => ?_, h2⟩
            have := h1 c hc
            simp_all
        · refine List.pairwise_cons.mpr ⟨fun c hc => ?_, ih h2⟩
          rcases Memory.mem_write hc with ⟨rfl, -⟩ | hc
          · show b < a
            omega
          · exact h1 c hc
  · intro c hc
    rcases Memory.mem_write hc with ⟨rfl, hv⟩ | hc
    · exact ⟨ha, hv⟩
    · exact hm.2 c hc

/-- An address below every listed one reads as an unlisted address. -/
theorem Memory.read_of_lt {m : List Host.Cell} {a : Nat} (h : ∀ c ∈ m, a < c.1) : Memory.read m a = Memory.unlisted := by
  induction m with
  | nil => rfl
  | cons d m ih =>
    obtain ⟨b, w⟩ := d
    have hb := h (b, w) (by simp)
    have : b ≠ a := by simp at hb; omega
    simp only [Memory.read, this, if_false]
    exact ih fun c hc => h c (List.mem_cons_of_mem _ hc)

/-- The read of a byte after a write. -/
theorem Memory.read_write {m : List Host.Cell} (hm : Memory.wf m) (a : Nat) (v : Byte) (x : Nat) :
    Memory.read (Memory.write m a v) x = if x = a then v else Memory.read m x := by
  obtain ⟨hm, -⟩ := hm
  induction m with
  | nil =>
    by_cases hv : v = Memory.unlisted <;> by_cases hx : x = a <;>
      simp_all [Memory.write, Memory.read, eq_comm]
  | cons d m ih =>
    obtain ⟨b, w⟩ := d
    obtain ⟨h1, h2⟩ := List.pairwise_cons.mp hm
    have ih := ih h2
    unfold Memory.write
    split
    · have hlow : ∀ c ∈ (b, w) :: m, a < c.1 := by
        intro c hc
        rcases List.mem_cons.mp hc with rfl | hc
        · assumption
        · exact Nat.lt_trans ‹_› (h1 c hc)
      split
      · by_cases hx : x = a
        · subst hx
          rw [Memory.read_of_lt hlow]
          simp_all
        · simp [hx]
      · by_cases hx : x = a
        · simp [Memory.read, hx]
        · have : ¬ a = x := fun e => hx e.symm
          simp [Memory.read, hx, this]
    · split
      · have hlow : ∀ c ∈ m, a < c.1 := by
          intro c hc
          have := h1 c hc
          simp_all
        split
        · by_cases hx : x = a
          · subst hx
            rw [Memory.read_of_lt hlow]
            simp_all
          · have : ¬ b = x := by omega
            simp [Memory.read, hx, this]
        · by_cases hx : x = a
          · simp [Memory.read, hx]
          · have h3 : ¬ b = x := by omega
            have h4 : ¬ a = x := by omega
            rw [if_neg hx, Memory.read, Memory.read, if_neg h3, if_neg h4]
      · by_cases hx : b = x
        · subst hx
          have : ¬ b = a := by omega
          simp [Memory.read, this]
        · simp [Memory.read, hx, ih]

/-- MemRead answers exactly at admitted addresses, with the byte there. -/
theorem State.memRead_eq_some {s : State} {a : Nat} {b : Byte} :
    s.memRead a = some b ↔ Params.admits s.params a = true ∧ b = s.byteAt a := by
  unfold State.memRead
  by_cases h : Params.admits s.params a = true
  · simp [h, eq_comm (a := b)]
  · simp [h]

/-- MemWrite answers exactly at admitted addresses, and only memory changes. -/
theorem State.memWrite_eq_some {s t : State} {a : Nat} {v : Byte} :
    s.memWrite a v = some t ↔ Params.admits s.params a = true ∧ t = { s with mem := Memory.write s.mem a v } := by
  unfold State.memWrite
  by_cases h : Params.admits s.params a = true
  · simp [h, eq_comm (a := t)]
  · simp [h]

/-- An admitted address is a 32-bit address. -/
theorem Params.admits_lt {p : Params} {a : Nat} (h : Params.admits p a = true) : a < 2 ^ 32 := by
  simp [Params.admits] at h
  exact h.1

/-- MemWrite keeps the canonical form. -/
theorem State.memWrite_wf {s t : State} {a : Nat} {v : Byte} (h : s.memWrite a v = some t) (hm : Memory.wf s.mem) :
    Memory.wf t.mem := by
  obtain ⟨ha, rfl⟩ := State.memWrite_eq_some.mp h
  exact Memory.wf_write hm (Params.admits_lt ha) v

/-- CodecStore changes memory alone. -/
theorem State.codecStore_next {s t : State} {a v e : Nat} (h : s.codecStore a v e = some t) :
    ∃ m, t = { s with mem := m } := by
  unfold State.codecStore at h
  split at h
  · obtain ⟨-, rfl⟩ := State.memWrite_eq_some.mp h
    exact ⟨_, rfl⟩
  · obtain ⟨t', h1, h2⟩ := Option.bind_eq_some_iff.mp h
    obtain ⟨-, rfl⟩ := State.memWrite_eq_some.mp h1
    obtain ⟨-, rfl⟩ := State.memWrite_eq_some.mp h2
    exact ⟨_, rfl⟩

/-- CodecStore keeps the canonical form. -/
theorem State.codecStore_wf {s t : State} {a v e : Nat} (h : s.codecStore a v e = some t) (hm : Memory.wf s.mem) :
    Memory.wf t.mem := by
  unfold State.codecStore at h
  split at h
  · exact State.memWrite_wf h hm
  · obtain ⟨t', h1, h2⟩ := Option.bind_eq_some_iff.mp h
    exact State.memWrite_wf h2 (State.memWrite_wf h1 hm)

end Sys2Proof.Machine
end

