-- ==== Sys2Proof/Laws/State.lean ====
section
/-! SUPPORT. One lemma per field per shared update of the state, and the fields of an instance that the updates of its registers
leave alone; all true by rfl. -/

namespace Sys2Proof.Machine

/-! ## Updates of the whole state -/

@[simp] theorem State.setInst_inst (s : State) (i : Nat) (u : InstState) : (s.setInst i u).inst = s.inst.set i u := rfl
@[simp] theorem State.setInst_fg (s : State) (i : Nat) (u : InstState) : (s.setInst i u).fg = s.fg := rfl
@[simp] theorem State.setInst_ic (s : State) (i : Nat) (u : InstState) : (s.setInst i u).ic = s.ic := rfl
@[simp] theorem State.setInst_faults (s : State) (i : Nat) (u : InstState) : (s.setInst i u).faults = s.faults := rfl
@[simp] theorem State.setInst_trace (s : State) (i : Nat) (u : InstState) : (s.setInst i u).trace = s.trace := rfl
@[simp] theorem State.setInst_mem (s : State) (i : Nat) (u : InstState) : (s.setInst i u).mem = s.mem := rfl
@[simp] theorem State.setInst_params (s : State) (i : Nat) (u : InstState) : (s.setInst i u).params = s.params := rfl
@[simp] theorem State.setInst_agenda (s : State) (i : Nat) (u : InstState) : (s.setInst i u).agenda = s.agenda := rfl

@[simp] theorem State.finishWith_inst (s : State) (w0 : Word) (p : ResultPacket) : (s.finishWith w0 p).inst = s.inst := rfl
@[simp] theorem State.finishWith_fg (s : State) (w0 : Word) (p : ResultPacket) : (s.finishWith w0 p).fg = s.fg := rfl
@[simp] theorem State.finishWith_ic (s : State) (w0 : Word) (p : ResultPacket) : (s.finishWith w0 p).ic = s.ic := rfl
@[simp] theorem State.finishWith_faults (s : State) (w0 : Word) (p : ResultPacket) : (s.finishWith w0 p).faults = s.faults := rfl
@[simp] theorem State.finishWith_trace (s : State) (w0 : Word) (p : ResultPacket) : (s.finishWith w0 p).trace = s.trace ++ [.result s.ctx w0 p] := rfl
@[simp] theorem State.finishWith_mem (s : State) (w0 : Word) (p : ResultPacket) : (s.finishWith w0 p).mem = s.mem := rfl
@[simp] theorem State.finishWith_params (s : State) (w0 : Word) (p : ResultPacket) : (s.finishWith w0 p).params = s.params := rfl
@[simp] theorem State.finishWith_agenda (s : State) (w0 : Word) (p : ResultPacket) : (s.finishWith w0 p).agenda = s.agenda := rfl

@[simp] theorem State.finish_inst (s : State) (w0 : Word) (c : ResultCode) : (s.finish w0 c).inst = s.inst := rfl
@[simp] theorem State.finish_fg (s : State) (w0 : Word) (c : ResultCode) : (s.finish w0 c).fg = s.fg := rfl
@[simp] theorem State.finish_ic (s : State) (w0 : Word) (c : ResultCode) : (s.finish w0 c).ic = s.ic := rfl
@[simp] theorem State.finish_faults (s : State) (w0 : Word) (c : ResultCode) : (s.finish w0 c).faults = s.faults := rfl
@[simp] theorem State.finish_trace (s : State) (w0 : Word) (c : ResultCode) : (s.finish w0 c).trace = s.trace ++ [.result s.ctx w0 (resultPacket c 0 0)] := rfl
@[simp] theorem State.finish_mem (s : State) (w0 : Word) (c : ResultCode) : (s.finish w0 c).mem = s.mem := rfl
@[simp] theorem State.finish_params (s : State) (w0 : Word) (c : ResultCode) : (s.finish w0 c).params = s.params := rfl
@[simp] theorem State.finish_agenda (s : State) (w0 : Word) (c : ResultCode) : (s.finish w0 c).agenda = s.agenda := rfl

@[simp] theorem State.raiseFault_inst (s : State) (n : FaultName) : (s.raiseFault n).inst = s.inst := rfl
@[simp] theorem State.raiseFault_fg (s : State) (n : FaultName) : (s.raiseFault n).fg = s.fg := rfl
@[simp] theorem State.raiseFault_ic (s : State) (n : FaultName) : (s.raiseFault n).ic = s.ic := rfl
@[simp] theorem State.raiseFault_faults (s : State) (n : FaultName) : (s.raiseFault n).faults = s.faults ++ [n] := rfl
@[simp] theorem State.raiseFault_trace (s : State) (n : FaultName) : (s.raiseFault n).trace = s.trace := rfl
@[simp] theorem State.raiseFault_mem (s : State) (n : FaultName) : (s.raiseFault n).mem = s.mem := rfl
@[simp] theorem State.raiseFault_params (s : State) (n : FaultName) : (s.raiseFault n).params = s.params := rfl
@[simp] theorem State.raiseFault_agenda (s : State) (n : FaultName) : (s.raiseFault n).agenda = s.agenda := rfl

@[simp] theorem State.fire_inst (s : State) (i : Nat) (h : Word) (ev : CallbackEvent) : (s.fire i h ev).inst = s.inst := rfl
@[simp] theorem State.fire_fg (s : State) (i : Nat) (h : Word) (ev : CallbackEvent) : (s.fire i h ev).fg = s.fg := rfl
@[simp] theorem State.fire_ic (s : State) (i : Nat) (h : Word) (ev : CallbackEvent) : (s.fire i h ev).ic = if h = 0 then s.ic else .active i ev (Params.handler s.params i h ev) := rfl
@[simp] theorem State.fire_faults (s : State) (i : Nat) (h : Word) (ev : CallbackEvent) : (s.fire i h ev).faults = s.faults := rfl
@[simp] theorem State.fire_trace (s : State) (i : Nat) (h : Word) (ev : CallbackEvent) : (s.fire i h ev).trace = s.trace ++ [.callback i ev h] := rfl
@[simp] theorem State.fire_mem (s : State) (i : Nat) (h : Word) (ev : CallbackEvent) : (s.fire i h ev).mem = s.mem := rfl
@[simp] theorem State.fire_params (s : State) (i : Nat) (h : Word) (ev : CallbackEvent) : (s.fire i h ev).params = s.params := rfl
@[simp] theorem State.fire_agenda (s : State) (i : Nat) (h : Word) (ev : CallbackEvent) : (s.fire i h ev).agenda = s.agenda := rfl

@[simp] theorem State.icReturn_inst (s : State) : (s.icReturn).inst = s.inst := rfl
@[simp] theorem State.icReturn_fg (s : State) : (s.icReturn).fg = s.fg := rfl
@[simp] theorem State.icReturn_ic (s : State) : (s.icReturn).ic = .none := rfl
@[simp] theorem State.icReturn_faults (s : State) : (s.icReturn).faults = s.faults := rfl
@[simp] theorem State.icReturn_trace (s : State) : (s.icReturn).trace = s.trace := rfl
@[simp] theorem State.icReturn_mem (s : State) : (s.icReturn).mem = s.mem := rfl
@[simp] theorem State.icReturn_params (s : State) : (s.icReturn).params = s.params := rfl
@[simp] theorem State.icReturn_agenda (s : State) : (s.icReturn).agenda = s.agenda := rfl

/-! ## Updates of one instance -/

@[simp] theorem setCtrl_cfg (u : InstState) (k : Nat) (b : Bool) : (setCtrl u k b).cfg = u.cfg := rfl
@[simp] theorem setCtrl_ctrl (u : InstState) (k : Nat) (b : Bool) : (setCtrl u k b).ctrl = setBit u.ctrl k b := rfl
@[simp] theorem setCtrl_stat (u : InstState) (k : Nat) (b : Bool) : (setCtrl u k b).stat = u.stat := rfl
@[simp] theorem setCtrl_baud (u : InstState) (k : Nat) (b : Bool) : (setCtrl u k b).baud = u.baud := rfl
@[simp] theorem setCtrl_rdr (u : InstState) (k : Nat) (b : Bool) : (setCtrl u k b).rdr = u.rdr := rfl
@[simp] theorem setCtrl_tdr (u : InstState) (k : Nat) (b : Bool) : (setCtrl u k b).tdr = u.tdr := rfl
@[simp] theorem setCtrl_matchReg (u : InstState) (k : Nat) (b : Bool) : (setCtrl u k b).matchReg = u.matchReg := rfl
@[simp] theorem setCtrl_txShift (u : InstState) (k : Nat) (b : Bool) : (setCtrl u k b).txShift = u.txShift := rfl
@[simp] theorem setCtrl_lineEn (u : InstState) (k : Nat) (b : Bool) : (setCtrl u k b).lineEn = u.lineEn := rfl
@[simp] theorem setCtrl_tx (u : InstState) (k : Nat) (b : Bool) : (setCtrl u k b).tx = u.tx := rfl
@[simp] theorem setCtrl_rx (u : InstState) (k : Nat) (b : Bool) : (setCtrl u k b).rx = u.rx := rfl
@[simp] theorem setCtrl_cb (u : InstState) (k : Nat) (b : Bool) : (setCtrl u k b).cb = u.cb := rfl
@[simp] theorem setCtrl_wire (u : InstState) (k : Nat) (b : Bool) : (setCtrl u k b).wire = u.wire := rfl

@[simp] theorem dataWrite_cfg (u : InstState) (v : Nat) : (dataWrite u v).cfg = u.cfg := rfl
@[simp] theorem dataWrite_ctrl (u : InstState) (v : Nat) : (dataWrite u v).ctrl = u.ctrl := rfl
@[simp] theorem dataWrite_stat (u : InstState) (v : Nat) : (dataWrite u v).stat = setBit (setBit u.stat Stat.tdre false) Stat.tc false := rfl
@[simp] theorem dataWrite_baud (u : InstState) (v : Nat) : (dataWrite u v).baud = u.baud := rfl
@[simp] theorem dataWrite_rdr (u : InstState) (v : Nat) : (dataWrite u v).rdr = u.rdr := rfl
@[simp] theorem dataWrite_tdr (u : InstState) (v : Nat) : (dataWrite u v).tdr = BitVec.ofNat 10 v := rfl
@[simp] theorem dataWrite_matchReg (u : InstState) (v : Nat) : (dataWrite u v).matchReg = u.matchReg := rfl
@[simp] theorem dataWrite_txShift (u : InstState) (v : Nat) : (dataWrite u v).txShift = u.txShift := rfl
@[simp] theorem dataWrite_lineEn (u : InstState) (v : Nat) : (dataWrite u v).lineEn = u.lineEn := rfl
@[simp] theorem dataWrite_tx (u : InstState) (v : Nat) : (dataWrite u v).tx = u.tx := rfl
@[simp] theorem dataWrite_rx (u : InstState) (v : Nat) : (dataWrite u v).rx = u.rx := rfl
@[simp] theorem dataWrite_cb (u : InstState) (v : Nat) : (dataWrite u v).cb = u.cb := rfl
@[simp] theorem dataWrite_wire (u : InstState) (v : Nat) : (dataWrite u v).wire = u.wire := rfl

@[simp] theorem dataRead_cfg (u : InstState) : (dataRead u).cfg = u.cfg := rfl
@[simp] theorem dataRead_ctrl (u : InstState) : (dataRead u).ctrl = u.ctrl := rfl
@[simp] theorem dataRead_stat (u : InstState) : (dataRead u).stat = setBit u.stat Stat.rdrf false := rfl
@[simp] theorem dataRead_baud (u : InstState) : (dataRead u).baud = u.baud := rfl
@[simp] theorem dataRead_rdr (u : InstState) : (dataRead u).rdr = u.rdr := rfl
@[simp] theorem dataRead_tdr (u : InstState) : (dataRead u).tdr = u.tdr := rfl
@[simp] theorem dataRead_matchReg (u : InstState) : (dataRead u).matchReg = u.matchReg := rfl
@[simp] theorem dataRead_txShift (u : InstState) : (dataRead u).txShift = u.txShift := rfl
@[simp] theorem dataRead_lineEn (u : InstState) : (dataRead u).lineEn = u.lineEn := rfl
@[simp] theorem dataRead_tx (u : InstState) : (dataRead u).tx = u.tx := rfl
@[simp] theorem dataRead_rx (u : InstState) : (dataRead u).rx = u.rx := rfl
@[simp] theorem dataRead_cb (u : InstState) : (dataRead u).cb = u.cb := rfl
@[simp] theorem dataRead_wire (u : InstState) : (dataRead u).wire = u.wire := rfl

@[simp] theorem clearErrorFlags_cfg (u : InstState) : (clearErrorFlags u).cfg = u.cfg := rfl
@[simp] theorem clearErrorFlags_ctrl (u : InstState) : (clearErrorFlags u).ctrl = u.ctrl := rfl
@[simp] theorem clearErrorFlags_stat (u : InstState) : (clearErrorFlags u).stat = setBit (setBit (setBit (setBit u.stat Stat.pf false) Stat.fe false) Stat.nf false) Stat.or false := rfl
@[simp] theorem clearErrorFlags_baud (u : InstState) : (clearErrorFlags u).baud = u.baud := rfl
@[simp] theorem clearErrorFlags_rdr (u : InstState) : (clearErrorFlags u).rdr = u.rdr := rfl
@[simp] theorem clearErrorFlags_tdr (u : InstState) : (clearErrorFlags u).tdr = u.tdr := rfl
@[simp] theorem clearErrorFlags_matchReg (u : InstState) : (clearErrorFlags u).matchReg = u.matchReg := rfl
@[simp] theorem clearErrorFlags_txShift (u : InstState) : (clearErrorFlags u).txShift = u.txShift := rfl
@[simp] theorem clearErrorFlags_lineEn (u : InstState) : (clearErrorFlags u).lineEn = u.lineEn := rfl
@[simp] theorem clearErrorFlags_tx (u : InstState) : (clearErrorFlags u).tx = u.tx := rfl
@[simp] theorem clearErrorFlags_rx (u : InstState) : (clearErrorFlags u).rx = u.rx := rfl
@[simp] theorem clearErrorFlags_cb (u : InstState) : (clearErrorFlags u).cb = u.cb := rfl
@[simp] theorem clearErrorFlags_wire (u : InstState) : (clearErrorFlags u).wire = u.wire := rfl

@[simp] theorem resetRegisters_cfg (u : InstState) : (resetRegisters u).cfg = u.cfg := rfl
@[simp] theorem resetRegisters_ctrl (u : InstState) : (resetRegisters u).ctrl = Ctrl.resetValue := rfl
@[simp] theorem resetRegisters_stat (u : InstState) : (resetRegisters u).stat = Stat.resetValue := rfl
@[simp] theorem resetRegisters_baud (u : InstState) : (resetRegisters u).baud = Baud.resetValue := rfl
@[simp] theorem resetRegisters_rdr (u : InstState) : (resetRegisters u).rdr = 0 := rfl
@[simp] theorem resetRegisters_tdr (u : InstState) : (resetRegisters u).tdr = 0 := rfl
@[simp] theorem resetRegisters_matchReg (u : InstState) : (resetRegisters u).matchReg = Match.resetValue := rfl
@[simp] theorem resetRegisters_txShift (u : InstState) : (resetRegisters u).txShift = none := rfl
@[simp] theorem resetRegisters_lineEn (u : InstState) : (resetRegisters u).lineEn = u.lineEn := rfl
@[simp] theorem resetRegisters_tx (u : InstState) : (resetRegisters u).tx = u.tx := rfl
@[simp] theorem resetRegisters_rx (u : InstState) : (resetRegisters u).rx = u.rx := rfl
@[simp] theorem resetRegisters_cb (u : InstState) : (resetRegisters u).cb = u.cb := rfl
@[simp] theorem resetRegisters_wire (u : InstState) : (resetRegisters u).wire = u.wire := rfl

@[simp] theorem rxServed_cfg (e : Nat) (u : InstState) : (rxServed e u).cfg = u.cfg := rfl
@[simp] theorem rxServed_ctrl (e : Nat) (u : InstState) : (rxServed e u).ctrl = u.ctrl := rfl
@[simp] theorem rxServed_stat (e : Nat) (u : InstState) : (rxServed e u).stat = setBit u.stat Stat.rdrf false := rfl
@[simp] theorem rxServed_baud (e : Nat) (u : InstState) : (rxServed e u).baud = u.baud := rfl
@[simp] theorem rxServed_rdr (e : Nat) (u : InstState) : (rxServed e u).rdr = u.rdr := rfl
@[simp] theorem rxServed_tdr (e : Nat) (u : InstState) : (rxServed e u).tdr = u.tdr := rfl
@[simp] theorem rxServed_matchReg (e : Nat) (u : InstState) : (rxServed e u).matchReg = u.matchReg := rfl
@[simp] theorem rxServed_txShift (e : Nat) (u : InstState) : (rxServed e u).txShift = u.txShift := rfl
@[simp] theorem rxServed_lineEn (e : Nat) (u : InstState) : (rxServed e u).lineEn = u.lineEn := rfl
@[simp] theorem rxServed_tx (e : Nat) (u : InstState) : (rxServed e u).tx = u.tx := rfl
@[simp] theorem rxServed_cb (e : Nat) (u : InstState) : (rxServed e u).cb = u.cb := rfl
@[simp] theorem rxServed_wire (e : Nat) (u : InstState) : (rxServed e u).wire = u.wire := rfl

@[simp] theorem rxCompleted_cfg (u : InstState) : (rxCompleted u).cfg = u.cfg := rfl
@[simp] theorem rxCompleted_ctrl (u : InstState) : (rxCompleted u).ctrl = withReceiveOff u.ctrl := rfl
@[simp] theorem rxCompleted_stat (u : InstState) : (rxCompleted u).stat = u.stat := rfl
@[simp] theorem rxCompleted_baud (u : InstState) : (rxCompleted u).baud = u.baud := rfl
@[simp] theorem rxCompleted_rdr (u : InstState) : (rxCompleted u).rdr = u.rdr := rfl
@[simp] theorem rxCompleted_tdr (u : InstState) : (rxCompleted u).tdr = u.tdr := rfl
@[simp] theorem rxCompleted_matchReg (u : InstState) : (rxCompleted u).matchReg = u.matchReg := rfl
@[simp] theorem rxCompleted_txShift (u : InstState) : (rxCompleted u).txShift = u.txShift := rfl
@[simp] theorem rxCompleted_lineEn (u : InstState) : (rxCompleted u).lineEn = u.lineEn := rfl
@[simp] theorem rxCompleted_tx (u : InstState) : (rxCompleted u).tx = u.tx := rfl
@[simp] theorem rxCompleted_cb (u : InstState) : (rxCompleted u).cb = u.cb := rfl
@[simp] theorem rxCompleted_wire (u : InstState) : (rxCompleted u).wire = u.wire := rfl

@[simp] theorem txServed_cfg (e v : Nat) (u : InstState) : (txServed e v u).cfg = u.cfg := rfl
@[simp] theorem txServed_ctrl (e v : Nat) (u : InstState) : (txServed e v u).ctrl = u.ctrl := rfl
@[simp] theorem txServed_stat (e v : Nat) (u : InstState) : (txServed e v u).stat = setBit (setBit u.stat Stat.tdre false) Stat.tc false := rfl
@[simp] theorem txServed_baud (e v : Nat) (u : InstState) : (txServed e v u).baud = u.baud := rfl
@[simp] theorem txServed_rdr (e v : Nat) (u : InstState) : (txServed e v u).rdr = u.rdr := rfl
@[simp] theorem txServed_tdr (e v : Nat) (u : InstState) : (txServed e v u).tdr = BitVec.ofNat 10 v := rfl
@[simp] theorem txServed_matchReg (e v : Nat) (u : InstState) : (txServed e v u).matchReg = u.matchReg := rfl
@[simp] theorem txServed_txShift (e v : Nat) (u : InstState) : (txServed e v u).txShift = u.txShift := rfl
@[simp] theorem txServed_lineEn (e v : Nat) (u : InstState) : (txServed e v u).lineEn = u.lineEn := rfl
@[simp] theorem txServed_rx (e v : Nat) (u : InstState) : (txServed e v u).rx = u.rx := rfl
@[simp] theorem txServed_cb (e v : Nat) (u : InstState) : (txServed e v u).cb = u.cb := rfl
@[simp] theorem txServed_wire (e v : Nat) (u : InstState) : (txServed e v u).wire = u.wire := rfl

@[simp] theorem txCompleted_cfg (u : InstState) : (txCompleted u).cfg = u.cfg := rfl
@[simp] theorem txCompleted_ctrl (u : InstState) : (txCompleted u).ctrl = setBit u.ctrl Ctrl.tie false := rfl
@[simp] theorem txCompleted_stat (u : InstState) : (txCompleted u).stat = u.stat := rfl
@[simp] theorem txCompleted_baud (u : InstState) : (txCompleted u).baud = u.baud := rfl
@[simp] theorem txCompleted_rdr (u : InstState) : (txCompleted u).rdr = u.rdr := rfl
@[simp] theorem txCompleted_tdr (u : InstState) : (txCompleted u).tdr = u.tdr := rfl
@[simp] theorem txCompleted_matchReg (u : InstState) : (txCompleted u).matchReg = u.matchReg := rfl
@[simp] theorem txCompleted_txShift (u : InstState) : (txCompleted u).txShift = u.txShift := rfl
@[simp] theorem txCompleted_lineEn (u : InstState) : (txCompleted u).lineEn = u.lineEn := rfl
@[simp] theorem txCompleted_rx (u : InstState) : (txCompleted u).rx = u.rx := rfl
@[simp] theorem txCompleted_cb (u : InstState) : (txCompleted u).cb = u.cb := rfl
@[simp] theorem txCompleted_wire (u : InstState) : (txCompleted u).wire = u.wire := rfl

@[simp] theorem txLoaded_cfg (u : InstState) : (txLoaded u).cfg = u.cfg := rfl
@[simp] theorem txLoaded_ctrl (u : InstState) : (txLoaded u).ctrl = u.ctrl := rfl
@[simp] theorem txLoaded_stat (u : InstState) : (txLoaded u).stat = setBit u.stat Stat.tdre true := rfl
@[simp] theorem txLoaded_baud (u : InstState) : (txLoaded u).baud = u.baud := rfl
@[simp] theorem txLoaded_rdr (u : InstState) : (txLoaded u).rdr = u.rdr := rfl
@[simp] theorem txLoaded_tdr (u : InstState) : (txLoaded u).tdr = u.tdr := rfl
@[simp] theorem txLoaded_matchReg (u : InstState) : (txLoaded u).matchReg = u.matchReg := rfl
@[simp] theorem txLoaded_txShift (u : InstState) : (txLoaded u).txShift = some (frameOf u) := rfl
@[simp] theorem txLoaded_lineEn (u : InstState) : (txLoaded u).lineEn = u.lineEn := rfl
@[simp] theorem txLoaded_tx (u : InstState) : (txLoaded u).tx = u.tx := rfl
@[simp] theorem txLoaded_rx (u : InstState) : (txLoaded u).rx = u.rx := rfl
@[simp] theorem txLoaded_cb (u : InstState) : (txLoaded u).cb = u.cb := rfl
@[simp] theorem txLoaded_wire (u : InstState) : (txLoaded u).wire = u.wire := rfl

end Sys2Proof.Machine
end

