-- ==== Sys2Proof/Laws/Ops.lean ====
section
/-! SUPPORT. What the shared checks, a command and a step can answer, each said once. -/

namespace Sys2Proof.Machine

/-- The instance check: either the instance is out of range and the command answers InvalidArgument, or the rest runs. -/
theorem State.withInst_next {s t : State} {w0 : Word} {i : Nat} {rest : InstState → Result}
    (h : s.withInst w0 i rest = .next t) :
    (s.inst[i]? = none ∧ t = s.finish w0 .invalidArgument) ∨ ∃ u, s.inst[i]? = some u ∧ rest u = .next t := by
  unfold State.withInst at h
  split at h
  · exact .inl ⟨‹_›, by simpa using h.symm⟩
  · exact .inr ⟨_, ‹_›, h⟩

/-- The instance and initialization checks. -/
theorem State.withReady_next {s t : State} {w0 : Word} {i : Nat} {rest : InstState → UartConfig → Result}
    (h : s.withReady w0 i rest = .next t) :
    (∃ c, t = s.finish w0 c) ∨ ∃ u c, s.inst[i]? = some u ∧ u.cfg = some c ∧ rest u c = .next t := by
  unfold State.withReady at h
  rcases State.withInst_next h with ⟨-, rfl⟩ | ⟨u, hu, h⟩
  · exact .inl ⟨_, rfl⟩
  · split at h
    · exact .inl ⟨.notReady, by simpa using h.symm⟩
    · exact .inr ⟨u, _, hu, ‹_›, h⟩

/-- The acceptance checks: a fault, a rejection, or the rest runs with the checks passed. -/
theorem State.withArm_next {s t : State} {w0 : Word} {i : Nat} {blocking : Bool} {active : State → Nat → InstState → Bool}
    {addr len : Word} {rest : InstState → UartConfig → Result}
    (h : s.withArm w0 i blocking active addr len rest = .next t) :
    (blocking = true ∧ s.ctx = .ic ∧ t = s.raiseFault .blockingInInterruptContext) ∨ (∃ c, t = s.finish w0 c) ∨
      ∃ u c, s.inst[i]? = some u ∧ u.cfg = some c ∧ ¬ (blocking = true ∧ s.ctx = .ic) ∧ addr ≠ 0 ∧ len ≠ 0 ∧
        len.toNat % stride (effw c) = 0 ∧ addr.toNat + len.toNat ≤ 2 ^ 32 ∧ active s i u = false ∧ rest u c = .next t := by
  unfold State.withArm at h
  split at h
  · have hb := ‹blocking = true ∧ s.ctx = .ic›
    exact .inl ⟨hb.1, hb.2, by simpa using h.symm⟩
  · refine .inr ?_
    rcases State.withReady_next h with ⟨c, rfl⟩ | ⟨u, c, hu, hc, h⟩
    · exact .inl ⟨c, rfl⟩
    · split at h
      · exact .inl ⟨.invalidArgument, by simpa using h.symm⟩
      · split at h
        · exact .inl ⟨.invalidArgument, by simpa using h.symm⟩
        · split at h
          · exact .inl ⟨.invalidArgument, by simpa using h.symm⟩
          · split at h
            · exact .inl ⟨.busy, by simpa using h.symm⟩
            · refine .inr ⟨u, c, hu, hc, ‹_›, ?_, ?_, ?_, ?_, ?_, h⟩ <;> simp_all

/-- A command of this block always answers a next state: its errors are result codes and recorded faults (60_exceptions.md
R320, R321). -/
theorem exec_answers_next (c : Instr) (s : State) : ∃ t, exec c s = .next t := by
  cases c <;>
    simp only [exec, execInit, execDeinit, execSetbaud, execSendBlocking, execSendAsync, execRecvBlocking, execRecvAsync,
      execAbortSend, execAbortRecv, execTxEnable, execTxDisable, execRxEnable, execRxDisable, execRegCallback,
      execRegErrCallback, execGetTxStatus, execGetRxStatus, writeEnable, State.withArm, State.withReady, State.withInst] <;>
    (repeat' split) <;> exact ⟨_, rfl⟩

/-- A step answers a next state only with no fault recorded: nothing on the agenda and nothing changes, or the next entry is
taken. -/
theorem step_next {s t : State} (h : step s = .next t) :
    s.faults = [] ∧ ((s.agenda = [] ∧ t = s) ∨ ∃ ev rest, s.agenda = ev :: rest ∧ advance ev rest s = .next t) := by
  unfold step at h
  split at h
  · simp at h
  · refine ⟨‹_›, ?_⟩
    split at h
    · exact .inl ⟨‹_›, by simpa using h.symm⟩
    · exact .inr ⟨_, _, ‹_›, h⟩

/-- Taking an entry: its transition, or it lapses. -/
theorem advance_next {ev : Event} {rest : List Event} {s t : State} (h : advance ev rest s = .next t) :
    offer ev { s with agenda := rest } = some (.next t) ∨
      (offer ev { s with agenda := rest } = none ∧ t = { s with agenda := rest }) := by
  unfold advance at h
  split at h
  · subst h
    exact .inl ‹_›
  · exact .inr ⟨‹_›, by simpa using h.symm⟩

end Sys2Proof.Machine
end

