-- ==== Sys2Proof/Laws/Decode.lean ====
section
/-! SUPPORT. The fields of a command word, and that the opcode and KIND numberings are inverse to their readings. -/

namespace Sys2Proof

/-- An opcode's number is read as that opcode. -/
theorem Op.ofCode_code (op : Op) : Op.ofCode op.code = some op := by cases op <;> rfl

/-- Only an opcode's own number is read as it. -/
theorem Op.code_of_ofCode {n : Nat} {op : Op} (h : Op.ofCode n = some op) : op.code = n := by
  unfold Op.ofCode at h
  split at h <;> simp_all <;> subst h <;> rfl

/-- An opcode's number fits OPC. -/
theorem Op.code_lt (op : Op) : op.code < 256 := by cases op <;> decide

/-- A KIND's number is read as that kind. -/
theorem SlotKind.ofCode_code (k : SlotKind) : SlotKind.ofCode k.code = some k := by cases k <;> rfl

/-- Only a kind's own number is read as it. -/
theorem SlotKind.code_of_ofCode {n : Nat} {k : SlotKind} (h : SlotKind.ofCode n = some k) : k.code = n := by
  unfold SlotKind.ofCode at h
  split at h <;> simp_all <;> subst h <;> rfl

/-- A command word as a number. -/
theorem toNat_commandWord (op : Op) (i kind : Nat) :
    (commandWord op i kind).toNat = op.code + (i % 16) * 2 ^ 8 + (kind % 4) * 2 ^ 12 := by
  have := op.code_lt
  unfold commandWord
  rw [BitVec.toNat_ofNat]
  omega

/-- OPC of a command word. -/
theorem slice_commandWord_opc (op : Op) (i kind : Nat) : slice (commandWord op i kind) 7 0 = op.code := by
  have := op.code_lt
  simp only [slice, toNat_commandWord, Nat.shiftRight_eq_div_pow]
  omega

/-- INST of a command word. -/
theorem slice_commandWord_inst (op : Op) (i kind : Nat) : slice (commandWord op i kind) 11 8 = i % 16 := by
  have := op.code_lt
  simp only [slice, toNat_commandWord, Nat.shiftRight_eq_div_pow]
  omega

/-- KIND of a command word. -/
theorem slice_commandWord_kind (op : Op) (i kind : Nat) : slice (commandWord op i kind) 13 12 = kind % 4 := by
  have := op.code_lt
  simp only [slice, toNat_commandWord, Nat.shiftRight_eq_div_pow]
  omega

/-- The reserved bits of a command word. -/
theorem slice_commandWord_rsv (op : Op) (i kind : Nat) : slice (commandWord op i kind) 31 14 = 0 := by
  have := op.code_lt
  simp only [slice, toNat_commandWord, Nat.shiftRight_eq_div_pow]
  omega

/-- The packet of a command carries its command word. -/
theorem encode_w0 (c : Instr) : (encode c).w0 = c.w0 := by cases c <;> rfl

end Sys2Proof
end

