-- ==== Sys2Proof/Laws/PerInstr.lean ====
section
/-! SUPPORT. Statements about every command as syntax, one lemma per constructor. Family ReservedZero: the command word of every
command has its reserved bits 0 and its own opcode in OPC (30_encoding.md R111, R118). -/

namespace Sys2Proof.Laws.ReservedZero

/-- The encoder writes 0 into W0[31:14] and the command's opcode into W0[7:0]. -/
def Statement (c : Instr) : Prop := slice (encode c).w0 31 14 = 0 ∧ slice (encode c).w0 7 0 = c.op.code

/-- The statement holds of every command whose packet carries its own command word. -/
theorem of_commandWord (c : Instr) : Statement c := by
  unfold Statement
  rw [encode_w0]
  exact ⟨slice_commandWord_rsv _ _ _, slice_commandWord_opc _ _ _⟩

theorem init (i : Nat) (config baud : Word) : Statement (.init i config baud) := of_commandWord _
theorem deinit (i : Nat) : Statement (.deinit i) := of_commandWord _
theorem setbaud (i : Nat) (baud : Word) : Statement (.setbaud i baud) := of_commandWord _
theorem sendBlocking (i : Nat) (addr len : Word) : Statement (.sendBlocking i addr len) := of_commandWord _
theorem sendAsync (i : Nat) (addr len : Word) : Statement (.sendAsync i addr len) := of_commandWord _
theorem recvBlocking (i : Nat) (addr len : Word) : Statement (.recvBlocking i addr len) := of_commandWord _
theorem recvAsync (i : Nat) (addr len : Word) : Statement (.recvAsync i addr len) := of_commandWord _
theorem abortSend (i : Nat) : Statement (.abortSend i) := of_commandWord _
theorem abortRecv (i : Nat) : Statement (.abortRecv i) := of_commandWord _
theorem txEnable (i : Nat) : Statement (.txEnable i) := of_commandWord _
theorem txDisable (i : Nat) : Statement (.txDisable i) := of_commandWord _
theorem rxEnable (i : Nat) : Statement (.rxEnable i) := of_commandWord _
theorem rxDisable (i : Nat) : Statement (.rxDisable i) := of_commandWord _
theorem regCallback (i : Nat) (kind : SlotKind) (handle : Word) : Statement (.regCallback i kind handle) :=
  of_commandWord _
theorem regErrCallback (i : Nat) (handle : Word) : Statement (.regErrCallback i handle) := of_commandWord _
theorem getTxStatus (i : Nat) : Statement (.getTxStatus i) := of_commandWord _
theorem getRxStatus (i : Nat) : Statement (.getRxStatus i) := of_commandWord _

end Sys2Proof.Laws.ReservedZero
end

