-- ==== Sys2Proof/Machine/Assembler.lean ====
section
/-! DEFINITION. The assembler (30_encoding.md R121) and its pseudo-commands (R122): a line's abstract form, the packet it
assembles to, and the reading of a line from text (log 17). No step of the machine uses this file. -/

namespace Sys2Proof.Machine

/-- One assembler line (R121) or pseudo-command (R122). -/
inductive AsmLine where
  /-- A command with its operands as words; INIT takes the configuration word and the baud rate. -/
  | plain (c : Instr)
  /-- `INIT u<i>, <width>, <parity>, <stop>, <clk>, <baud>`. -/
  | initSymbolic (i : Nat) (c : UartConfig)
  /-- `CONFIGURE u<i>, ...`, another name of INIT. -/
  | configure (i : Nat) (c : UartConfig)
  /-- `UNREGISTER u<i>, <kind>`. -/
  | unregister (i : Nat) (kind : SlotKind)
  /-- `SET_BAUD u<i>, <baud>`, another name of SETBAUD. -/
  | setBaud (i : Nat) (baud : Word)
  /-- `.raw <W0>, <W1>, <W2>`: a packet word by word. -/
  | raw (p : Packet)
deriving DecidableEq, Repr

/-- The packet of a line. -/
def assemble (line : AsmLine) : Packet :=
  match line with
  | .plain c => encode c
  | .initSymbolic i c => encode (.init i (configWord c) c.baud)
  | .configure i c => encode (.init i (configWord c) c.baud)
  | .unregister i kind => encode (.regCallback i kind 0)
  | .setBaud i baud => encode (.setbaud i baud)
  | .raw p => p

/-! ## Operands from text -/

/-- The value of a digit in base 10 or 16. -/
def digitValue (base : Nat) (c : Char) : Option Nat :=
  let n := c.toNat
  let d :=
    if 48 ≤ n ∧ n ≤ 57 then n - 48
    else if 97 ≤ n ∧ n ≤ 102 then n - 87
    else if 65 ≤ n ∧ n ≤ 70 then n - 55
    else base
  if d < base then some d else none

/-- The number the digits write, read on from `acc`. -/
def readDigits (base acc : Nat) : List Char → Option Nat
  | [] => some acc
  | c :: cs =>
    match digitValue base c with
    | none => none
    | some d => readDigits base (acc * base + d) cs

/-- A number: decimal, or hexadecimal with `0x`. -/
def readNat (text : List Char) : Option Nat :=
  match text with
  | [] => none
  | '0' :: 'x' :: digits => if digits = [] then none else readDigits 16 0 digits
  | digits => readDigits 10 0 digits

/-- A number that fits a packet word. -/
def readWord (text : List Char) : Option Word :=
  match readNat text with
  | none => none
  | some n => if n < 2 ^ 32 then some (BitVec.ofNat 32 n) else none

/-- `u<i>`: an index the instance field can hold. -/
def readInstance (text : List Char) : Option Nat :=
  match text with
  | 'u' :: digits =>
    match digits with
    | [] => none
    | _ :: _ => (readDigits 10 0 digits).filter (· < 16)
  | _ => none

/-- The entry listed under a name. -/
def readName {α : Type} (names : List (String × α)) (text : List Char) : Option α := names.lookup (String.ofList text)

def readKind : List Char → Option SlotKind := readName [("error", .error), ("txdone", .txDone), ("rxdone", .rxDone)]
def readWidth : List Char → Option Width := readName [("7", .w7), ("8", .w8), ("9", .w9), ("10", .w10)]
def readParity : List Char → Option Parity := readName [("none", .disabled), ("even", .even), ("odd", .odd)]
def readStop : List Char → Option StopBits := readName [("1", .one), ("2", .two)]
def readClock : List Char → Option Clock := readName [("slow", .slow), ("fast", .fast)]

/-! ## Operand forms -/

/-- `u<i>`. -/
def readUnary (make : Nat → Instr) (operands : List (List Char)) : Option AsmLine :=
  match operands with
  | [i] => do
    let i ← readInstance i
    return .plain (make i)
  | _ => none

/-- `u<i>, <word>`. -/
def readBinary (make : Nat → Word → AsmLine) (operands : List (List Char)) : Option AsmLine :=
  match operands with
  | [i, w] => do
    let i ← readInstance i
    let w ← readWord w
    return make i w
  | _ => none

/-- `u<i>, <word>, <word>`. -/
def readTernary (make : Nat → Word → Word → Instr) (operands : List (List Char)) : Option AsmLine :=
  match operands with
  | [i, w1, w2] => do
    let i ← readInstance i
    let w1 ← readWord w1
    let w2 ← readWord w2
    return .plain (make i w1 w2)
  | _ => none

/-- INIT's operands: symbolic, or the configuration word and the baud rate as words. -/
def readInit (symbolic : Nat → UartConfig → AsmLine) (operands : List (List Char)) : Option AsmLine :=
  match operands with
  | [i, width, parity, stop, clk, baud] => do
    let i ← readInstance i
    let width ← readWidth width
    let parity ← readParity parity
    let stop ← readStop stop
    let clk ← readClock clk
    let baud ← readWord baud
    return symbolic i ⟨width, parity, stop, baud, clk⟩
  | _ => readTernary .init operands

/-- REG_CALLBACK's operands. -/
def readRegCallback (operands : List (List Char)) : Option AsmLine :=
  match operands with
  | [i, kind, handle] => do
    let i ← readInstance i
    let kind ← readKind kind
    let handle ← readWord handle
    return .plain (.regCallback i kind handle)
  | _ => none

/-- UNREGISTER's operands. -/
def readUnregister (operands : List (List Char)) : Option AsmLine :=
  match operands with
  | [i, kind] => do
    let i ← readInstance i
    let kind ← readKind kind
    return .unregister i kind
  | _ => none

/-- The operands of `.raw`. -/
def readRaw (operands : List (List Char)) : Option AsmLine :=
  match operands with
  | [w0, w1, w2] => do
    let w0 ← readWord w0
    let w1 ← readWord w1
    let w2 ← readWord w2
    return .raw ⟨w0, w1, w2⟩
  | _ => none

/-! ## Lines -/

/-- A line with the mnemonic `mnemonic`. -/
def readMnemonic (mnemonic : String) (operands : List (List Char)) : Option AsmLine :=
  match mnemonic with
  | "INIT" => readInit .initSymbolic operands
  | "DEINIT" => readUnary .deinit operands
  | "SETBAUD" => readBinary (fun i baud => .plain (.setbaud i baud)) operands
  | "SEND_BLOCKING" => readTernary .sendBlocking operands
  | "SEND_ASYNC" => readTernary .sendAsync operands
  | "RECV_BLOCKING" => readTernary .recvBlocking operands
  | "RECV_ASYNC" => readTernary .recvAsync operands
  | "ABORT_SEND" => readUnary .abortSend operands
  | "ABORT_RECV" => readUnary .abortRecv operands
  | "TX_ENABLE" => readUnary .txEnable operands
  | "TX_DISABLE" => readUnary .txDisable operands
  | "RX_ENABLE" => readUnary .rxEnable operands
  | "RX_DISABLE" => readUnary .rxDisable operands
  | "REG_CALLBACK" => readRegCallback operands
  | "REG_ERR_CALLBACK" => readBinary (fun i handle => .plain (.regErrCallback i handle)) operands
  | "GET_TX_STATUS" => readUnary .getTxStatus operands
  | "GET_RX_STATUS" => readUnary .getRxStatus operands
  | "CONFIGURE" => readInit .configure operands
  | "UNREGISTER" => readUnregister operands
  | "SET_BAUD" => readBinary .setBaud operands
  | ".raw" => readRaw operands
  | _ => none

/-- The parts of a text between commas, without the spaces around them. -/
def splitOperands : List Char → List (List Char)
  | [] => [[]]
  | ',' :: cs => [] :: splitOperands cs
  | c :: cs =>
    match splitOperands cs with
    | [] => [[c]]
    | part :: parts => (c :: part) :: parts

/-- A text without the spaces at its ends. -/
def trimSpaces (text : List Char) : List Char :=
  ((text.dropWhile (· = ' ')).reverse.dropWhile (· = ' ')).reverse

/-- A line read from its text: the mnemonic, spaces, and the operands between commas. -/
def readLine (line : String) : Option AsmLine :=
  let text := trimSpaces line.toList
  readMnemonic (String.ofList (text.takeWhile (· ≠ ' '))) ((splitOperands (text.dropWhile (· ≠ ' '))).map trimSpaces)

/-- The packet a line of text assembles to; `none` where the text is no line of R121 or R122. -/
def assembleText (line : String) : Option Packet := (readLine line).map assemble

end Sys2Proof.Machine
end

