-- ==== Sys2Proof/Safety.lean ====
section
/-! DEFINITION. The terms claims are made in: when a step is enabled, runs and weak fairness (00_scope.md R17, R18;
45_line_side.md R301; 60_exceptions.md R331), the good final states (R321), the invariants of the block (10_state.md R36,
R37, R39 to R43, R45, R51; 41_framing_codec.md R164; 40_divisor_search.md R146; 45_line_side.md R294), and what a step on one
instance leaves alone. -/

namespace Sys2Proof.Machine

/-! ## Steps and runs -/

/-- A run that ended with no fault recorded: a good final state has this (60_exceptions.md R321). -/
abbrev State.Good (s : State) : Prop := s.faults = []

/-- The step `ev` names is enabled in `s`: the enabling conditions of 43_transfer_ops.md R222 and R225,
44_interrupt_dispatcher.md R261, 45_line_side.md R293, R294 and R296, and 60_exceptions.md R328. A stuck step is enabled
(R322). -/
def enabled (ev : Event) (s : State) : Bool :=
  match ev with
  | .command _ => commandEnabled s
  | .foreground => foregroundEnabled s
  | .interrupt => decide (s.ic ≠ .none)
  | .dispatch i => dispatchEnabled s i
  | .txLoad i => (s.inst[i]?).any txLoadEnabled
  | .txShiftDone i => (s.inst[i]?).any fun u => u.txShift.isSome
  | .rxFrame i _ => (s.inst[i]?).isSome
  | .hostWrite _ _ => true

/-- The step `ev` takes `s` to `t` (00_scope.md R17): no fault is recorded and `ev` has a transition. -/
def Takes (s : State) (ev : Event) (t : State) : Prop := s.faults = [] ∧ offer ev s = some (.next t)

/-- An infinite run: `σ n` is the state before the `n`-th step and `ε n` the step taken (R18). -/
def IsRun (σ : Nat → State) (ε : Nat → Event) : Prop := ∀ n, Takes (σ n) (ε n) (σ (n + 1))

/-- Weak fairness for one step: from no point on does it stay possible and untaken (45_line_side.md R301, 60_exceptions.md
R331; log 15). A stuck step has no transition and is never possible. -/
def WeaklyFair (σ : Nat → State) (ε : Nat → Event) (ev : Event) : Prop :=
  ∀ n, (∀ m, n ≤ m → (offer ev (σ m)).isSome) → ∃ m, n ≤ m ∧ ε m = ev

/-! ## Invariants of one instance -/

/-- Every bit of `w` outside `fields` is 0. -/
abbrev ReservedZero (fields w : Word) : Prop := ∀ k < 32, bit fields k = false → bit w k = false

/-- The register layout (10_state.md R39 to R43): reserved bits are 0, at most one width select is set, OSR and SBR are legal,
MATCH is disabled, RDR holds no bit above the effective width. -/
abbrev RegsOk (u : InstState) : Prop :=
  ReservedZero Ctrl.fields u.ctrl ∧ ReservedZero Stat.fields u.stat ∧ ReservedZero Baud.fields u.baud ∧
    (bit u.ctrl Ctrl.m7 = true → bit u.ctrl Ctrl.m = false ∧ bit u.ctrl Ctrl.m10 = false) ∧
    (bit u.ctrl Ctrl.m = true → bit u.ctrl Ctrl.m10 = false) ∧
    3 ≤ Baud.osr u.baud ∧ 1 ≤ Baud.sbr u.baud ∧
    u.matchReg = 0 ∧ u.rdr.toNat < 2 ^ effwCtrl u.ctrl

/-- TC says that nothing is left to transmit: the shift register is idle and TDR is empty (45_line_side.md R294). -/
abbrev PipelineOk (u : InstState) : Prop :=
  bit u.stat Stat.tc = true ↔ bit u.stat Stat.tdre = true ∧ u.txShift = none

/-- The registers hold what the configuration programs (41_framing_codec.md R164, 40_divisor_search.md R145 to R147, 10_state.md
R41), and the statuses are Uninitialized exactly without one (R51). -/
abbrev CfgOk (p : Params) (i : Nat) (u : InstState) : Prop :=
  (u.cfg = none →
    u.ctrl = Ctrl.resetValue ∧ u.baud = Baud.resetValue ∧ u.lineEn = false ∧
      u.tx.status = .uninitialized ∧ u.rx.status = .uninitialized) ∧
  (∀ c ∈ u.cfg,
    (c.width = .w10 → c.parity = .disabled) ∧ c.baud ≠ 0 ∧
      effwCtrl u.ctrl = effw c ∧ bit u.ctrl Ctrl.pe = decide (c.parity ≠ .disabled) ∧
      bit u.ctrl Ctrl.pt = decide (c.parity = .odd) ∧ bit u.baud Baud.sbns = decide (c.stop = .two) ∧
      (Baud.osr u.baud + 1, Baud.sbr u.baud) = divisorSearch p.osr16 c.clk.hz c.baud.toNat i ∧
      bit u.baud Baud.bothEdge = decide (Baud.osr u.baud + 1 < 8) ∧
      u.tx.status ≠ .uninitialized ∧ u.rx.status ≠ .uninitialized)

/-- 10_state.md R36: the progress never passes the length, and while a transfer is in flight it counts whole characters and the
buffer does not wrap. -/
abbrev ProgressOk (u : InstState) : Prop :=
  u.tx.progress.toNat ≤ u.tx.len.toNat ∧ u.rx.progress.toNat ≤ u.rx.len.toNat ∧
    ∀ c ∈ u.cfg,
      (u.tx.busy = true →
        u.tx.progress.toNat % stride (effw c) = 0 ∧ u.tx.addr.toNat + u.tx.len.toNat ≤ 2 ^ 32) ∧
      (u.rx.busy = true →
        u.rx.progress.toNat % stride (effw c) = 0 ∧ u.rx.addr.toNat + u.rx.len.toNat ≤ 2 ^ 32)

/-- 10_state.md R37, (a) to (f). -/
abbrev LinkOk (u : InstState) : Prop :=
  (bit u.ctrl Ctrl.tie = true → u.tx.busy = true) ∧
  (bit u.ctrl Ctrl.rie = true → u.rx.busy = true) ∧
  (u.tx.busy = true ↔ u.tx.status = .busy) ∧
  (u.rx.status = .busy → u.rx.busy = true) ∧
  (bit u.ctrl Ctrl.orie = true ∨ bit u.ctrl Ctrl.neie = true ∨ bit u.ctrl Ctrl.feie = true ∨
    bit u.ctrl Ctrl.peie = true → u.rx.busy = true) ∧
  (u.rx.busy = true → u.rx.status ≠ .uninitialized ∧ u.rx.status ≠ .ready)

/-- What acceptance adds to R36 while a transfer is in flight (43_transfer_ops.md R220, 44_interrupt_dispatcher.md R263, R264):
characters are left, and they are whole; the line is enabled; the four error enables are always equal (R266). -/
abbrev ArmedOk (u : InstState) : Prop :=
  (u.tx.busy = true → u.lineEn = true ∧ u.tx.addr ≠ 0 ∧ u.tx.progress.toNat < u.tx.len.toNat ∧
    ∀ c ∈ u.cfg, u.tx.len.toNat % stride (effw c) = 0) ∧
  (u.rx.busy = true → u.lineEn = true ∧ u.rx.addr ≠ 0 ∧ u.rx.progress.toNat < u.rx.len.toNat ∧
    ∀ c ∈ u.cfg, u.rx.len.toNat % stride (effw c) = 0) ∧
  bit u.ctrl Ctrl.neie = bit u.ctrl Ctrl.orie ∧ bit u.ctrl Ctrl.feie = bit u.ctrl Ctrl.orie ∧
  bit u.ctrl Ctrl.peie = bit u.ctrl Ctrl.orie

/-- The invariant of instance `i`. -/
def instOk (p : Params) (i : Nat) (u : InstState) : Bool :=
  decide (RegsOk u) && decide (PipelineOk u) && decide (CfgOk p i u) && decide (ProgressOk u) && decide (LinkOk u) &&
    decide (ArmedOk u)

/-! ## Invariants of the whole state -/

/-- A blocking loop in progress: its instance exists, the captured width is one of the four, whole characters are left, the
buffer does not wrap (10_state.md R45, 43_transfer_ops.md R220). -/
abbrev LoopOk (addr len : Word) (e idx : Nat) : Prop :=
  7 ≤ e ∧ e ≤ 10 ∧ addr ≠ 0 ∧ addr.toNat + len.toNat ≤ 2 ^ 32 ∧ len.toNat % stride e = 0 ∧ idx % stride e = 0 ∧
    idx < len.toNat

/-- FG's loop is well formed, and no asynchronous transfer of the same direction is in flight on its instance: "exactly one
outstanding transfer per direction per instance" (43_transfer_ops.md R230). -/
def fgOk (s : State) : Bool :=
  match s.fg with
  | .idle => true
  | .sendBlk i addr len e idx _ => decide (LoopOk addr len e idx) && (s.inst[i]?).any fun u => !u.tx.busy
  | .recvBlk i addr len e idx => decide (LoopOk addr len e idx) && (s.inst[i]?).any fun u => !u.rx.busy

/-- A running handler belongs to an instance (10_state.md R46). -/
def icOk (s : State) : Bool :=
  match s.ic with
  | .none => true
  | .active i _ _ => decide (i < s.inst.length)

/-- The invariant of the machine. -/
abbrev State.Inv (s : State) : Prop :=
  1 ≤ s.inst.length ∧ s.inst.length ≤ 16 ∧ Params.wf s.params s.inst.length ∧ Memory.wf s.mem ∧
    (∀ i < s.inst.length, ∀ u ∈ s.inst[i]?, instOk s.params i u = true) ∧ fgOk s = true ∧ icOk s = true

/-! ## Frames -/

/-- Everything outside instance `i` but the log is as before: the other instances, both agents, the faults, every byte of
buffer memory, the parameters and the agenda. -/
abbrev OnlyInst (i : Nat) (s t : State) : Prop :=
  t.inst.length = s.inst.length ∧ (∀ j, j ≠ i → t.inst[j]? = s.inst[j]?) ∧ t.fg = s.fg ∧ t.ic = s.ic ∧
    t.faults = s.faults ∧ (∀ a, t.byteAt a = s.byteAt a) ∧ t.params = s.params ∧ t.agenda = s.agenda

/-- Every bit of the register but those listed is as before. -/
abbrev SameBut (ks : List Nat) (w w' : Word) : Prop := ∀ k < 32, k ∉ ks → bit w' k = bit w k

/-! ## What a command or an entry of the agenda does -/

/-- The command answers result code `code` and changes nothing but the log (30_encoding.md R112). -/
abbrev Rejects (c : Instr) (s : State) (code : Word) : Prop :=
  exec c s = .next { s with trace := s.trace ++ [.result s.ctx c.w0 ⟨code, 0⟩] }

/-- The command records the fault and changes nothing else (60_exceptions.md R321). -/
abbrev FaultsWith (c : Instr) (s : State) (name : FaultName) : Prop :=
  exec c s = .next { s with faults := s.faults ++ [name] }

/-- The command finishes with result packet `(p0, 0)`, leaves its instance as `v` and changes nothing else. -/
def Finishes (c : Instr) (s : State) (v : InstState) (p0 : Word) : Prop :=
  ∃ t, exec c s = .next t ∧ t.inst[c.inst]? = some v ∧ OnlyInst c.inst s t ∧
    t.trace = s.trace ++ [.result s.ctx c.w0 ⟨p0, 0⟩]

/-- `ev` is the next entry of the agenda and no fault is recorded. -/
abbrev NextUp (s : State) (ev : Event) (rest : List Event) : Prop := s.faults = [] ∧ s.agenda = ev :: rest

/-- The buffer a transfer command names passes the argument checks of 43_transfer_ops.md R220. -/
abbrev BufferOk (c : UartConfig) (addr len : Word) : Prop :=
  addr ≠ 0 ∧ len ≠ 0 ∧ len.toNat % stride (effw c) = 0 ∧ addr.toNat + len.toNat ≤ 2 ^ 32

/-- INIT's operands `arg0`, `arg1` describe configuration `c` and pass every check of 42_configuration_ops.md R182; the fields are
those of 30_encoding.md R116. Written from the table, not from the decoder's `decodeConfig`. -/
abbrev Describes (arg0 arg1 : Word) (c : UartConfig) : Prop :=
  bit arg0 31 = true ∧ slice arg0 30 6 = 0 ∧ arg1 ≠ 0 ∧ c.baud = arg1 ∧ c.width.bits = 7 + slice arg0 1 0 ∧
    (c.parity = .disabled ∧ slice arg0 3 2 = 0 ∨ c.parity = .even ∧ slice arg0 3 2 = 1 ∨ c.parity = .odd ∧ slice arg0 3 2 = 2) ∧
    bit arg0 4 = decide (c.stop = .two) ∧ bit arg0 5 = decide (c.clk = .fast) ∧
    ¬ (c.width = .w10 ∧ c.parity ≠ .disabled)

/-- FG is inside a blocking send on instance `i` (10_state.md R45). -/
def SendsBlocking (s : State) (i : Nat) : Prop := ∃ addr len e idx phase, s.fg = .sendBlk i addr len e idx phase

/-- FG is inside a blocking receive on instance `i` (10_state.md R45). -/
def ReceivesBlocking (s : State) (i : Nat) : Prop := ∃ addr len e idx, s.fg = .recvBlk i addr len e idx

/-- active(i, tx) of 43_transfer_ops.md R220. -/
abbrev SendActive (s : State) (i : Nat) (u : InstState) : Prop := u.tx.busy = true ∨ SendsBlocking s i

/-- active(i, rx) of 43_transfer_ops.md R220. -/
abbrev RecvActive (s : State) (i : Nat) (u : InstState) : Prop := u.rx.busy = true ∨ ReceivesBlocking s i

/-- A transfer is in flight on instance `i` (10_state.md R50). -/
abbrev InFlight (s : State) (i : Nat) (u : InstState) : Prop := SendActive s i u ∨ RecvActive s i u

/-- The step `ev` delivers command `c` in state `s`: FG issues it, or the active handler does (60_exceptions.md R328). -/
def Delivers (s : State) (ev : Event) (c : Instr) : Prop :=
  (∃ p, ev = .command p ∧ decode p = .ok c) ∨
    (ev = .interrupt ∧ ∃ i e p rest, s.ic = .active i e (p :: rest) ∧ decode p = .ok c)

/-- The command reads ARG0 (30_encoding.md R117). -/
def readsArg0 (c : Instr) : Bool :=
  match c.op with
  | .init | .sendBlocking | .sendAsync | .recvBlocking | .recvAsync | .regCallback | .regErrCallback => true
  | .deinit | .setbaud | .abortSend | .abortRecv | .txEnable | .txDisable | .rxEnable | .rxDisable | .getTxStatus
  | .getRxStatus => false

/-- The command reads ARG1 (30_encoding.md R117). -/
def readsArg1 (c : Instr) : Bool :=
  match c.op with
  | .init | .setbaud | .sendBlocking | .sendAsync | .recvBlocking | .recvAsync => true
  | .deinit | .abortSend | .abortRecv | .txEnable | .txDisable | .rxEnable | .rxDisable | .regCallback
  | .regErrCallback | .getTxStatus | .getRxStatus => false

end Sys2Proof.Machine
end

