-- ==== Sys2Proof/Certificates/Slice0/Obligations.lean ====
section
/-! DEFINITION. The statements for the provers. Each docstring names the rules of spec/ the statement formalises, or the log
entry it rests on. -/

open Sys2Proof Sys2Proof.Machine

/-! ## Encoding -/

/-- 30_encoding.md R111, R116 to R118: decoding the packet of a well-formed command gives the command back, with every operand. -/
def Obligations.DecodeOfEncode : Prop := ∀ c : Instr, WellFormed c → decode (encode c) = .ok c

/-- 30_encoding.md R111, R117: no bit of a legal command word is dropped, and an operand word the command reads is kept whole. -/
def Obligations.EncodeOfDecode : Prop :=
  ∀ (p : Packet) (c : Instr), decode p = .ok c →
    WellFormed c ∧ (encode c).w0 = p.w0 ∧ (readsArg0 c = true → (encode c).w1 = p.w1) ∧
      (readsArg1 c = true → (encode c).w2 = p.w2)

/-- 30_encoding.md R119: the illegal packets are exactly those of (a) to (d), and delivering one, in either context, answers
InvalidArgument with P0[15:8] = 0 and P1 = 0 and changes nothing else. Every other packet is dispatched to the command of its
opcode with i = W0[11:8]. -/
def Obligations.IllegalPacketsAnswerInvalidArgument : Prop :=
  ∀ p : Packet,
    ((∃ e, decode p = .error e) ↔
      slice p.w0 7 0 ∉ [0x01, 0x02, 0x03, 0x10, 0x11, 0x12, 0x13, 0x14, 0x15, 0x20, 0x21, 0x22, 0x23, 0x30, 0x31, 0x40, 0x41] ∨
      slice p.w0 31 14 ≠ 0 ∨ (slice p.w0 13 12 ≠ 0 ∧ slice p.w0 7 0 ≠ 0x30) ∨
      (slice p.w0 7 0 = 0x30 ∧ slice p.w0 13 12 = 3)) ∧
    ((∃ e, decode p = .error e) → ∀ s : State,
      runPacket p s = .next { s with trace := s.trace ++ [.result s.ctx p.w0 ⟨2, 0⟩] }) ∧
    (∀ c, decode p = .ok c → c.op.code = slice p.w0 7 0 ∧ c.inst = slice p.w0 11 8 ∧ ∀ s : State, runPacket p s = exec c s)

/-- 30_encoding.md R123, the four encoding examples: the packet of each line, and what the decoder reads from it. -/
def Obligations.EncodingExamplesDecode : Prop :=
  (assembleText "INIT u0, 8, none, 1, fast, 115200" = some ⟨0x00000001, 0x80000021, 0x0001C200⟩ ∧
    decode ⟨0x00000001, 0x80000021, 0x0001C200⟩ = .ok (.init 0 0x80000021 115200)) ∧
  (assembleText "SEND_ASYNC u2, 0x20000000, 3" = some ⟨0x00000211, 0x20000000, 0x00000003⟩ ∧
    decode ⟨0x00000211, 0x20000000, 0x00000003⟩ = .ok (.sendAsync 2 0x20000000 3)) ∧
  (assembleText "REG_CALLBACK u1, rxdone, 0x1234" = some ⟨0x00002130, 0x00001234, 0⟩ ∧
    decode ⟨0x00002130, 0x00001234, 0⟩ = .ok (.regCallback 1 .rxDone 0x1234)) ∧
  assembleText ".raw 0x00001011, 0, 0" = some ⟨0x00001011, 0, 0⟩ ∧ decode ⟨0x00001011, 0, 0⟩ = .error .kindMisuse

/-- 30_encoding.md R122: the pseudo-commands assemble to the packets of their expansions, and REG_CALLBACK with the error kind
does what REG_ERR_CALLBACK does, but for the opcode in its word and so in its Result entry. -/
def Obligations.PseudoCommandsExpand : Prop :=
  let packet (mnemonic : String) (operands : List (List Char)) := (readMnemonic mnemonic operands).map assemble
  (∀ operands, packet "CONFIGURE" operands = packet "INIT" operands) ∧
  (∀ i kind, packet "UNREGISTER" [i, kind] = packet "REG_CALLBACK" [i, kind, ['0']]) ∧
  (∀ operands, packet "SET_BAUD" operands = packet "SETBAUD" operands) ∧
  (∀ i baud n b, readInstance i = some n → readWord baud = some b →
    packet "SET_BAUD" [i, baud] = some ⟨BitVec.ofNat 32 (0x03 + n * 2 ^ 8), 0, b⟩) ∧
  ∀ (s : State) (i : Nat) (h : Word),
    slice (encode (.regCallback i .error h)).w0 7 0 = 0x30 ∧ slice (encode (.regCallback i .error h)).w0 13 12 = 0 ∧
    slice (encode (.regErrCallback i h)).w0 7 0 = 0x31 ∧
    ∃ (t : State) (r : ResultPacket), ∀ cmd ∈ [Instr.regCallback i .error h, .regErrCallback i h],
      exec cmd s = .next { t with trace := s.trace ++ [.result s.ctx cmd.w0 r] }

/-- 30_encoding.md R116, with the checks of 42_configuration_ops.md R182: which operands describe a configuration, and which. An
absent configuration, a reserved bit, parity code 3 and baud 0 describe none. -/
def Obligations.ConfigurationWordFields : Prop :=
  ∀ (arg0 arg1 : Word) (c : UartConfig),
    decodeConfig arg0 arg1 = some c ↔ Describes arg0 arg1 c

/-- 30_encoding.md R116, R121: the word a symbolic INIT assembles to describes the configuration it names. -/
def Obligations.ConfigurationWordRoundTrip : Prop :=
  ∀ c : UartConfig, c.baud ≠ 0 → (c.width = .w10 → c.parity = .disabled) → decodeConfig (configWord c) c.baud = some c

/-! ## The step -/

/-- 30_encoding.md R110, R119, 10_state.md R45: a packet FG issues is decoded and executed in one step, the agenda moved on. -/
def Obligations.StepRunsForegroundCommand : Prop :=
  ∀ (s : State) (p : Packet) (rest : List Event), NextUp s (.command p) rest → s.ic = .none → s.fg = .idle →
    (∀ c, decode p = .ok c → WellFormed c → step s = exec c { s with agenda := rest }) ∧
    ((∃ e, decode p = .error e) →
      step s = .next { s with agenda := rest, trace := s.trace ++ [.result .fg p.w0 ⟨2, 0⟩] })

/-- 60_exceptions.md R328: IC_CMD takes the packet off `pending` and executes it; IC_RETURN ends the handler and restores
nothing (R329). The agenda is the model's (log 1). Where the command raises a model fault, that `pending` is already
shortened is the model's choice (log 8): R321 says the step changes nothing but `faults`. -/
def Obligations.StepRunsHandlerCommand : Prop :=
  ∀ (s : State) (i : Nat) (ev : CallbackEvent) (rest : List Event), NextUp s .interrupt rest →
    (∀ (p : Packet) (pending : List Packet), s.ic = .active i ev (p :: pending) →
      (∀ c, decode p = .ok c → WellFormed c →
        step s = exec c { s with agenda := rest, ic := .active i ev pending }) ∧
      ((∃ e, decode p = .error e) →
        step s = .next { s with
          agenda := rest, ic := .active i ev pending, trace := s.trace ++ [.result .ic p.w0 ⟨2, 0⟩] })) ∧
    (s.ic = .active i ev [] → step s = .next { s with agenda := rest, ic := .none })

/-- 60_exceptions.md R321: from a state with a recorded fault no agent has any further step. -/
def Obligations.StepHaltsAfterFault : Prop :=
  ∀ (s : State) (name : FaultName) (more : List FaultName), s.faults = name :: more → step s = .fault (.halted name)

/-- The model's choice (log 1, log 2): the next entry of the agenda is the step taken, and an entry with no transition lapses. -/
def Obligations.StepTakesAgendaEntry : Prop :=
  ∀ (s : State) (ev : Event) (rest : List Event), NextUp s ev rest →
    (∀ t, Takes { s with agenda := rest } ev t → step s = .next t) ∧
    ((∀ t, ¬ Takes { s with agenda := rest } ev t) → step s = .next { s with agenda := rest })

/-- 60_exceptions.md R322, 20_memory.md R81: where the memory admits every address, the steps that have a transition are exactly
the enabled ones, for every agent; nothing but a refused access makes an enabled step stuck. The enabling conditions are those of
43_transfer_ops.md R222 and R225, 44_interrupt_dispatcher.md R261, 45_line_side.md R293, R294 and R296 and 60_exceptions.md
R328. -/
def Obligations.EnabledStepsTakePlace : Prop :=
  ∀ (s : State) (ev : Event), s.Inv → s.faults = [] → (∀ a < 2 ^ 32, Params.admits s.params a = true) →
    (enabled ev s = true ↔ ∃ t, Takes s ev t)

/-- 60_exceptions.md R330, R328: while a handler runs no DISPATCH is enabled and FG has no step; the step is none at all. -/
def Obligations.HandlerIsNotPreempted : Prop :=
  ∀ (s : State) (ev : Event), s.ic ≠ .none →
    ((∃ i, ev = .dispatch i) ∨ ev = .foreground ∨ (∃ p, ev = .command p)) → enabled ev s = false ∧ offer ev s = none

/-- The model's choice (log 12): after withFetchWord the next step delivers exactly that packet. -/
def Obligations.FetchWordIsDelivered : Prop :=
  ∀ (s : State) (nbits w : Nat) (c : Instr), decodeTableWord nbits w = some c →
    step (s.withFetchWord nbits w) =
      exec c { s with fg := if s.ic = .none then .idle else s.fg, faults := [] }

/-! ## Divisor search -/

/-- 40_divisor_search.md R148 and R143 (derived there from R141 and R142): the ratio is in 4..32 and the divider in 1..8191, no
ratio has a smaller error, and every lower ratio has a larger one. -/
def Obligations.DivisorSearchIsOptimal : Prop :=
  ∀ clk baud : Nat,
    let rd := baseSearch clk baud
    4 ≤ rd.1 ∧ rd.1 ≤ 32 ∧ 1 ≤ rd.2 ∧ rd.2 ≤ 8191 ∧ rd.2 = candidateD clk baud rd.1 ∧
      (∀ r, 4 ≤ r → r ≤ 32 → candidateErr clk baud rd.1 ≤ candidateErr clk baud r) ∧
      (∀ r, 4 ≤ r → r < rd.1 → candidateErr clk baud rd.1 < candidateErr clk baud r)

/-- 40_divisor_search.md R141: the candidate's divider is the quotient rounded down, clamped into 1..8191; its error is the
distance of the achieved baud, itself rounded down. -/
def Obligations.CandidateRoundsDownAndClamps : Prop :=
  ∀ clk baud r : Nat, 1 ≤ baud → 4 ≤ r → r ≤ 32 →
    let d := candidateD clk baud r
    let ach := candidateAch clk baud r
    (clk < baud * r → d = 1) ∧ (8192 * (baud * r) ≤ clk → d = 8191) ∧
      (baud * r ≤ clk → clk < 8192 * (baud * r) → d * (baud * r) ≤ clk ∧ clk < (d + 1) * (baud * r)) ∧
      ach * (d * r) ≤ clk ∧ clk < (ach + 1) * (d * r) ∧
      candidateErr clk baud r = (baud - ach) + (ach - baud)

/-- 40_divisor_search.md R144: the override forces ratio 16 on its instance and on no other. -/
def Obligations.OverrideForcesRatioSixteen : Prop :=
  ∀ (osr16 : Option Nat) (clk baud i : Nat),
    (osr16 = some i → divisorSearch osr16 clk baud i = (16, candidateD clk baud 16)) ∧
      (osr16 ≠ some i → divisorSearch osr16 clk baud i = baseSearch clk baud)

/-- 40_divisor_search.md R146 and R145: ProgramBaud writes OSR, SBR and BOTHEDGE, and no other bit of BAUD. -/
def Obligations.ProgramBaudWritesThreeFields : Prop :=
  ∀ (p : Params) (i : Nat) (c : UartConfig) (w : Word),
    let rd := divisorSearch p.osr16 c.clk.hz c.baud.toNat i
    let w' := programBaud p i c w
    Baud.osr w' = rd.1 - 1 ∧ Baud.sbr w' = rd.2 ∧ bit w' Baud.bothEdge = decide (rd.1 < 8) ∧
      (∀ k < 32, 12 < k → k ≠ 17 → (k < 24 ∨ 28 < k) → bit w' k = bit w k)

/-! ## Memory and codec -/

/-- 20_memory.md R91, R80, R89: the host writes one byte of buffer memory, MEM_ADMITS or not, in one step; every other byte and the
rest of the state are as before, and the canonical form of the list is kept. -/
def Obligations.HostWriteChangesOneByte : Prop :=
  ∀ (s : State) (a : Word) (v : Byte),
    s.faults = [] → Memory.wf s.mem →
    ∃ t, Takes s (.hostWrite a v) t ∧ t.byteAt a.toNat = v ∧ (∀ x, x ≠ a.toNat → t.byteAt x = s.byteAt x) ∧ Memory.wf t.mem ∧
      { t with mem := s.mem } = s

/-- 41_framing_codec.md R162, 20_memory.md R81, R83: the loaded character is the byte, or the little-endian pair, cut to the
effective width; an unadmitted byte makes the load impossible. -/
def Obligations.CodecLoadReadsLittleEndian : Prop :=
  ∀ (s : State) (a e : Nat), 7 ≤ e → e ≤ 10 →
    (e ≤ 8 → s.codecLoad a e =
      if Params.admits s.params a then some ((s.byteAt a).toNat % 2 ^ e) else none) ∧
    (8 < e → s.codecLoad a e =
      if Params.admits s.params a && Params.admits s.params (a + 1) then
        some (((s.byteAt a).toNat + 256 * (s.byteAt (a + 1)).toNat) % 2 ^ e) else none)

/-- 41_framing_codec.md R163, 20_memory.md R81: the store writes exactly the stride's bytes, the bits above the width 0, and
writes nothing at all where a byte is not admitted. -/
def Obligations.CodecStoreWritesMaskedBytes : Prop :=
  ∀ (s : State) (a v e : Nat), Memory.wf s.mem → 7 ≤ e → e ≤ 10 →
    (e ≤ 8 → Params.admits s.params a = false → s.codecStore a v e = none) ∧
    (8 < e → (Params.admits s.params a && Params.admits s.params (a + 1)) = false → s.codecStore a v e = none) ∧
    (e ≤ 8 → Params.admits s.params a = true →
      ∃ t, s.codecStore a v e = some t ∧ (t.byteAt a).toNat = v % 2 ^ e ∧ (∀ x, x ≠ a → t.byteAt x = s.byteAt x)) ∧
    (8 < e → Params.admits s.params a = true → Params.admits s.params (a + 1) = true →
      ∃ t, s.codecStore a v e = some t ∧ (t.byteAt a).toNat = v % 256 ∧
        (t.byteAt (a + 1)).toNat = (v / 256) % 2 ^ (e - 8) ∧
        (∀ x, x ≠ a → x ≠ a + 1 → t.byteAt x = s.byteAt x))

/-- 41_framing_codec.md R166 (derived there): storing a character of the effective width and loading it gives it back. -/
def Obligations.CodecStoreThenLoad : Prop :=
  ∀ (s t : State) (a v e : Nat), Memory.wf s.mem → 7 ≤ e → e ≤ 10 → v < 2 ^ e → s.codecStore a v e = some t →
    t.codecLoad a e = some v

/-! ## Configuration, control and query commands -/

/-- 42_configuration_ops.md R182 and R183: INIT, every check in order and the whole effect. The effective width is the width, plus
one with parity (41_framing_codec.md R160), and the width selects follow from both as R164 tabulates. -/
def Obligations.InitConfiguresInstance : Prop :=
  ∀ (s : State) (i : Nat) (arg0 arg1 : Word),
    let cmd := Instr.init i arg0 arg1
    (s.inst[i]? = none → Rejects cmd s 2) ∧
    ∀ u, s.inst[i]? = some u →
      ((∀ c, ¬ Describes arg0 arg1 c) → Rejects cmd s 2) ∧
      ∀ c, Describes arg0 arg1 c →
        (InFlight s i u → FaultsWith cmd s .configureDuringTransfer) ∧
        (¬ InFlight s i u → ∃ v, Finishes cmd s v 0 ∧
          v.cfg = some c ∧
          effw c = c.width.bits + (if c.parity = .disabled then 0 else 1) ∧ effwCtrl v.ctrl = effw c ∧
          bit v.ctrl Ctrl.m7 = decide (c.width = .w7 ∧ c.parity = .disabled) ∧
          bit v.ctrl Ctrl.m = decide (c.width = .w8 ∧ c.parity ≠ .disabled ∨ c.width = .w9 ∧ c.parity = .disabled) ∧
          bit v.ctrl Ctrl.m10 = decide (c.width = .w9 ∧ c.parity ≠ .disabled ∨ c.width = .w10 ∧ c.parity = .disabled) ∧
          bit v.ctrl Ctrl.pe = decide (c.parity ≠ .disabled) ∧
          bit v.ctrl Ctrl.pt = decide (c.parity = .odd) ∧
          SameBut [Ctrl.m7, Ctrl.m, Ctrl.m10, Ctrl.pe, Ctrl.pt] 0x00000000 v.ctrl ∧
          v.stat = 0x00C00000 ∧
          (Baud.osr v.baud + 1, Baud.sbr v.baud) = divisorSearch s.params.osr16 c.clk.hz c.baud.toNat i ∧
          bit v.baud Baud.bothEdge = decide (Baud.osr v.baud + 1 < 8) ∧
          bit v.baud Baud.sbns = decide (c.stop = .two) ∧ ReservedZero Baud.fields v.baud ∧
          v.rdr = 0 ∧ v.tdr = 0 ∧ v.matchReg = 0 ∧ v.txShift = none ∧
          v.tx = ⟨0, 0, 0, false, .ready⟩ ∧ v.rx = ⟨0, 0, 0, false, .ready⟩ ∧
          v.lineEn = u.lineEn ∧ v.cb = u.cb ∧ v.wire = u.wire)

/-- 42_configuration_ops.md R184: DEINIT is accepted on every instance at any time and resets it, but for its wire log. -/
def Obligations.DeinitResetsInstance : Prop :=
  ∀ (s : State) (i : Nat),
    (s.inst[i]? = none → Rejects (.deinit i) s 2) ∧
    ∀ u, s.inst[i]? = some u →
      Finishes (.deinit i) s
        { cfg := none, ctrl := 0x00000000, stat := 0x00C00000, baud := 0x0F000004, rdr := 0, tdr := 0, matchReg := 0,
          txShift := none, lineEn := false, tx := ⟨0, 0, 0, false, .uninitialized⟩,
          rx := ⟨0, 0, 0, false, .uninitialized⟩, cb := ⟨0, 0, 0⟩, wire := u.wire } 0

/-- 42_configuration_ops.md R185: SETBAUD, every check in order; it writes the configured baud rate and OSR, SBR and BOTHEDGE. -/
def Obligations.SetbaudReprogramsDivisor : Prop :=
  ∀ (s : State) (i : Nat) (baud : Word),
    let cmd := Instr.setbaud i baud
    (s.inst[i]? = none → Rejects cmd s 2) ∧
    ∀ u, s.inst[i]? = some u →
      (u.cfg = none → Rejects cmd s 3) ∧
      ∀ c, u.cfg = some c →
        (baud = 0 → Rejects cmd s 2) ∧
        (baud ≠ 0 → InFlight s i u → FaultsWith cmd s .baudChangeDuringTransfer) ∧
        (baud ≠ 0 → ¬ InFlight s i u → ∃ v, Finishes cmd s v 0 ∧
          v.cfg = some { c with baud := baud } ∧
          (Baud.osr v.baud + 1, Baud.sbr v.baud) = divisorSearch s.params.osr16 c.clk.hz baud.toNat i ∧
          bit v.baud Baud.bothEdge = decide (Baud.osr v.baud + 1 < 8) ∧
          (∀ k < 32, 12 < k → k ≠ 17 → (k < 24 ∨ 28 < k) → bit v.baud k = bit u.baud k) ∧
          { v with cfg := u.cfg, baud := u.baud } = u)

/-- 42_configuration_ops.md R186 to R189: each of the four commands writes its one bit of CTRL. -/
def Obligations.EnablesWriteOneControlBit : Prop :=
  ∀ (s : State) (i : Nat) (cmd : Instr) (k : Nat) (b : Bool),
    (cmd, k, b) ∈ [(Instr.txEnable i, Ctrl.te, true), (Instr.txDisable i, Ctrl.te, false),
      (Instr.rxEnable i, Ctrl.re, true), (Instr.rxDisable i, Ctrl.re, false)] →
    (s.inst[i]? = none → Rejects cmd s 2) ∧
    ∀ u, s.inst[i]? = some u →
      (u.cfg = none → Rejects cmd s 3) ∧
      (u.cfg ≠ none → ∃ v, Finishes cmd s v 0 ∧ bit v.ctrl k = b ∧ SameBut [k] u.ctrl v.ctrl ∧
        { v with ctrl := u.ctrl } = u)

/-- 42_configuration_ops.md R190, R191: a registration writes its one slot, on an initialized instance or not. -/
def Obligations.RegistrationWritesOneSlot : Prop :=
  ∀ (s : State) (i : Nat) (h : Word) (cmd : Instr),
    cmd ∈ [Instr.regCallback i .error h, .regCallback i .txDone h, .regCallback i .rxDone h, .regErrCallback i h] →
    (s.inst[i]? = none → Rejects cmd s 2) ∧
    ∀ u, s.inst[i]? = some u → ∃ v, Finishes cmd s v 0 ∧ { v with cb := u.cb } = u ∧
      v.cb.err = (if cmd = .regCallback i .error h ∨ cmd = .regErrCallback i h then h else u.cb.err) ∧
      v.cb.txDone = (if cmd = .regCallback i .txDone h then h else u.cb.txDone) ∧
      v.cb.rxDone = (if cmd = .regCallback i .rxDone h then h else u.cb.rxDone)

/-- 42_configuration_ops.md R192: GET_TX_STATUS reports the visible status and the progress and changes nothing but the log.
Where there is no instance to report, the rule fixes the result code alone (log 18). -/
def Obligations.TxStatusQueryReports : Prop :=
  ∀ (s : State) (i : Nat),
    let answers (p0 p1 : Word) := exec (.getTxStatus i) s =
      .next { s with trace := s.trace ++ [.result s.ctx (Instr.getTxStatus i).w0 ⟨p0, p1⟩] }
    (s.inst[i]? = none → ∃ p0 p1, answers p0 p1 ∧ slice p0 7 0 = 2 ∧ slice p0 31 16 = 0) ∧
    ∀ u, s.inst[i]? = some u →
      (u.cfg = none → answers 0x000 u.tx.progress) ∧
      (u.cfg ≠ none →
        (u.tx.busy = true → answers 0x200 u.tx.progress) ∧
        (u.tx.busy = false →
          (u.tx.status = .uninitialized → answers 0x000 u.tx.progress) ∧
          (u.tx.status = .ready → answers 0x100 u.tx.progress) ∧
          (u.tx.status = .busy → answers 0x200 u.tx.progress)))

/-- 42_configuration_ops.md R193, 30_encoding.md R114: GET_RX_STATUS reports the visible status, Busy while a receive is in
flight and Error(k) after one that had an error, and changes nothing but the log. Where there is no instance to report, the
rule fixes the result code alone (log 18). -/
def Obligations.RxStatusQueryReports : Prop :=
  ∀ (s : State) (i : Nat),
    let answers (p0 p1 : Word) := exec (.getRxStatus i) s =
      .next { s with trace := s.trace ++ [.result s.ctx (Instr.getRxStatus i).w0 ⟨p0, p1⟩] }
    (s.inst[i]? = none → ∃ p0 p1, answers p0 p1 ∧ slice p0 7 0 = 2 ∧ slice p0 31 16 = 0) ∧
    ∀ u, s.inst[i]? = some u →
      (u.cfg = none → answers 0x000 u.rx.progress) ∧
      (u.cfg ≠ none →
        (u.rx.busy = true → answers 0x200 u.rx.progress) ∧
        (u.rx.busy = false →
          (u.rx.status = .uninitialized → answers 0x000 u.rx.progress) ∧
          (u.rx.status = .ready → answers 0x100 u.rx.progress) ∧
          (u.rx.status = .busy → answers 0x200 u.rx.progress) ∧
          (u.rx.status = .error .overrun → answers 0x300 u.rx.progress) ∧
          (u.rx.status = .error .framing → answers 0x400 u.rx.progress) ∧
          (u.rx.status = .error .parity → answers 0x500 u.rx.progress) ∧
          (u.rx.status = .error .noise → answers 0x600 u.rx.progress)))

/-! ## Transfer commands -/

/-- 43_transfer_ops.md R220: the acceptance checks of the four transfer commands, in their order. -/
def Obligations.ArmChecksInOrder : Prop :=
  ∀ (s : State) (i : Nat) (addr len : Word) (cmd : Instr) (blocking sends : Bool),
    (cmd, blocking, sends) ∈ [(Instr.sendBlocking i addr len, true, true), (Instr.sendAsync i addr len, false, true),
      (Instr.recvBlocking i addr len, true, false), (Instr.recvAsync i addr len, false, false)] →
    (blocking = true → s.ic ≠ .none → FaultsWith cmd s .blockingInInterruptContext) ∧
    ((blocking = false ∨ s.ic = .none) →
      (s.inst[i]? = none → Rejects cmd s 2) ∧
      ∀ u, s.inst[i]? = some u →
        (u.cfg = none → Rejects cmd s 3) ∧
        ∀ c, u.cfg = some c →
          (¬ BufferOk c addr len → Rejects cmd s 2) ∧
          (BufferOk c addr len → sends = true → SendActive s i u → Rejects cmd s 1) ∧
          (BufferOk c addr len → sends = false → RecvActive s i u → Rejects cmd s 1))

/-- 43_transfer_ops.md R221: an accepted SEND_BLOCKING sets TE, enters the loop, and gives no result yet. -/
def Obligations.SendBlockingEntersLoop : Prop :=
  ∀ (s : State) (i : Nat) (addr len : Word) (u : InstState) (c : UartConfig),
    s.ic = .none → s.inst[i]? = some u → u.cfg = some c → BufferOk c addr len → ¬ SendActive s i u →
    ∃ t v, exec (.sendBlocking i addr len) s = .next t ∧ t.inst[i]? = some v ∧
      OnlyInst i { s with fg := .sendBlk i addr len (effw c) 0 .waitTdre } t ∧ t.trace = s.trace ∧
      bit v.ctrl Ctrl.te = true ∧ SameBut [Ctrl.te] u.ctrl v.ctrl ∧ { v with ctrl := u.ctrl } = u

/-- 43_transfer_ops.md R223: an accepted SEND_ASYNC records the buffer, sets TE, TIE and the line enable and returns Busy, from
either context. -/
def Obligations.SendAsyncArmsTransmit : Prop :=
  ∀ (s : State) (i : Nat) (addr len : Word) (u : InstState) (c : UartConfig),
    s.inst[i]? = some u → u.cfg = some c → BufferOk c addr len → ¬ SendActive s i u →
    ∃ v, Finishes (.sendAsync i addr len) s v 1 ∧ v.tx = ⟨addr, len, 0, true, .busy⟩ ∧
      bit v.ctrl Ctrl.te = true ∧ bit v.ctrl Ctrl.tie = true ∧ SameBut [Ctrl.te, Ctrl.tie] u.ctrl v.ctrl ∧
      v.lineEn = true ∧ { v with tx := u.tx, ctrl := u.ctrl, lineEn := u.lineEn } = u

/-- 43_transfer_ops.md R224: an accepted RECV_BLOCKING sets RE, clears a pending error, enters the loop, and gives no result
yet. -/
def Obligations.RecvBlockingEntersLoop : Prop :=
  ∀ (s : State) (i : Nat) (addr len : Word) (u : InstState) (c : UartConfig),
    s.ic = .none → s.inst[i]? = some u → u.cfg = some c → BufferOk c addr len → ¬ RecvActive s i u →
    ∃ t v, exec (.recvBlocking i addr len) s = .next t ∧ t.inst[i]? = some v ∧
      OnlyInst i { s with fg := .recvBlk i addr len (effw c) 0 } t ∧ t.trace = s.trace ∧
      bit v.ctrl Ctrl.re = true ∧ SameBut [Ctrl.re] u.ctrl v.ctrl ∧
      ((∃ k, u.rx.status = .error k) → v.rx.status = .ready) ∧
      ((∀ k, u.rx.status ≠ .error k) → v.rx.status = u.rx.status) ∧
      { v.rx with status := u.rx.status } = u.rx ∧ { v with rx := u.rx, ctrl := u.ctrl } = u

/-- 43_transfer_ops.md R226: an accepted RECV_ASYNC records the buffer, clears Error(k), sets the error enables, RE, RIE and the
line enable and returns Busy; the flags of STAT are kept. -/
def Obligations.RecvAsyncArmsReceive : Prop :=
  ∀ (s : State) (i : Nat) (addr len : Word) (u : InstState) (c : UartConfig),
    s.inst[i]? = some u → u.cfg = some c → BufferOk c addr len → ¬ RecvActive s i u →
    ∃ v, Finishes (.recvAsync i addr len) s v 1 ∧ v.rx = ⟨addr, len, 0, true, .busy⟩ ∧
      bit v.ctrl Ctrl.orie = true ∧ bit v.ctrl Ctrl.neie = true ∧ bit v.ctrl Ctrl.feie = true ∧
      bit v.ctrl Ctrl.peie = true ∧ bit v.ctrl Ctrl.re = true ∧ bit v.ctrl Ctrl.rie = true ∧
      SameBut [Ctrl.orie, Ctrl.neie, Ctrl.feie, Ctrl.peie, Ctrl.re, Ctrl.rie] u.ctrl v.ctrl ∧
      v.lineEn = true ∧ { v with rx := u.rx, ctrl := u.ctrl, lineEn := u.lineEn } = u

/-- 43_transfer_ops.md R227: ABORT_SEND, in flight or not; no callback fires. -/
def Obligations.AbortSendClearsTransmit : Prop :=
  ∀ (s : State) (i : Nat),
    (s.inst[i]? = none → Rejects (.abortSend i) s 2) ∧
    ∀ u, s.inst[i]? = some u →
      (u.cfg = none → Rejects (.abortSend i) s 3) ∧
      (u.cfg ≠ none → ∃ v, Finishes (.abortSend i) s v 0 ∧ v.tx = ⟨0, 0, 0, false, .ready⟩ ∧
        bit v.ctrl Ctrl.tie = false ∧ bit v.ctrl Ctrl.te = false ∧ SameBut [Ctrl.tie, Ctrl.te] u.ctrl v.ctrl ∧
        bit v.stat Stat.tdre = true ∧
        bit v.stat Stat.tc = (if u.txShift = none then true else bit u.stat Stat.tc) ∧
        SameBut [Stat.tdre, Stat.tc] u.stat v.stat ∧ { v with tx := u.tx, ctrl := u.ctrl, stat := u.stat } = u)

/-- 43_transfer_ops.md R228: ABORT_RECV, in flight or not; the error flags are kept and no callback fires. -/
def Obligations.AbortRecvClearsReceive : Prop :=
  ∀ (s : State) (i : Nat),
    (s.inst[i]? = none → Rejects (.abortRecv i) s 2) ∧
    ∀ u, s.inst[i]? = some u →
      (u.cfg = none → Rejects (.abortRecv i) s 3) ∧
      (u.cfg ≠ none → ∃ v, Finishes (.abortRecv i) s v 0 ∧ v.rx = ⟨0, 0, 0, false, .ready⟩ ∧
        (∀ k ∈ [Ctrl.rie, Ctrl.orie, Ctrl.neie, Ctrl.feie, Ctrl.peie, Ctrl.re], bit v.ctrl k = false) ∧
        SameBut [Ctrl.rie, Ctrl.orie, Ctrl.neie, Ctrl.feie, Ctrl.peie, Ctrl.re] u.ctrl v.ctrl ∧
        bit v.stat Stat.rdrf = false ∧ SameBut [Stat.rdrf] u.stat v.stat ∧
        { v with rx := u.rx, ctrl := u.ctrl, stat := u.stat } = u)

/-! ## The blocking loops -/

/-- 43_transfer_ops.md R222, SendBlkData and SendBlkDone. The first waits for TDRE, loads one character into TDR, and is stuck where
memory refuses the character (20_memory.md R81); the second waits for TC, and after the last character clears TE and returns
Ready to FG. -/
def Obligations.BlockingSendLoop : Prop :=
  ∀ (s : State) (i : Nat) (addr len : Word) (e idx : Nat) (u : InstState),
    s.faults = [] → s.ic = .none → s.inst[i]? = some u →
    (s.fg = .sendBlk i addr len e idx .waitTdre →
      (bit u.stat Stat.tdre = false → ∀ t, ¬ Takes s .foreground t) ∧
      (bit u.stat Stat.tdre = true → s.codecLoad (addr.toNat + idx) e = none → ∀ t, ¬ Takes s .foreground t) ∧
      (∀ x, bit u.stat Stat.tdre = true → s.codecLoad (addr.toNat + idx) e = some x →
        ∃ t v, Takes s .foreground t ∧ t.inst[i]? = some v ∧
          OnlyInst i { s with fg := .sendBlk i addr len e idx .waitTc } t ∧ t.trace = s.trace ∧
          v.tdr.toNat = x % 1024 ∧ bit v.stat Stat.tdre = false ∧ bit v.stat Stat.tc = false ∧
          SameBut [Stat.tdre, Stat.tc] u.stat v.stat ∧ { v with tdr := u.tdr, stat := u.stat } = u)) ∧
    (s.fg = .sendBlk i addr len e idx .waitTc →
      (bit u.stat Stat.tc = false → ∀ t, ¬ Takes s .foreground t) ∧
      (bit u.stat Stat.tc = true → idx + stride e ≠ len.toNat →
        Takes s .foreground { s with fg := .sendBlk i addr len e (idx + stride e) .waitTdre }) ∧
      (bit u.stat Stat.tc = true → idx + stride e = len.toNat →
        ∃ t v, Takes s .foreground t ∧ t.inst[i]? = some v ∧ OnlyInst i { s with fg := .idle } t ∧
          t.trace = s.trace ++ [.result .fg (Instr.sendBlocking i addr len).w0 ⟨0, 0⟩] ∧
          bit v.ctrl Ctrl.te = false ∧ SameBut [Ctrl.te] u.ctrl v.ctrl ∧ { v with ctrl := u.ctrl } = u))

/-- 43_transfer_ops.md R225, RecvBlkData: it waits for RDRF, stores one character at its offset and nowhere else, is stuck where
memory refuses it, and after the last character clears RE and returns Ready to FG. -/
def Obligations.BlockingReceiveStoresCharacter : Prop :=
  ∀ (s : State) (i : Nat) (addr len : Word) (e idx : Nat) (u : InstState),
    s.faults = [] → s.ic = .none → s.fg = .recvBlk i addr len e idx → s.inst[i]? = some u →
    Memory.wf s.mem → 7 ≤ e → e ≤ 10 →
    (bit u.stat Stat.rdrf = false → ∀ t, ¬ Takes s .foreground t) ∧
    (bit u.stat Stat.rdrf = true → s.codecStore (addr.toNat + idx) u.rdr.toNat e = none →
      ∀ t, ¬ Takes s .foreground t) ∧
    (∀ m, bit u.stat Stat.rdrf = true → s.codecStore (addr.toNat + idx) u.rdr.toNat e = some m →
      ∃ t v, Takes s .foreground t ∧ t.inst[i]? = some v ∧
        (∀ x, t.byteAt x = m.byteAt x) ∧
        (∀ x, x < addr.toNat + idx ∨ addr.toNat + idx + stride e ≤ x → t.byteAt x = s.byteAt x) ∧
        bit v.stat Stat.rdrf = false ∧ SameBut [Stat.rdrf] u.stat v.stat ∧
        (idx + stride e ≠ len.toNat →
          OnlyInst i { s with mem := t.mem, fg := .recvBlk i addr len e (idx + stride e) } t ∧
          t.trace = s.trace ∧ { v with stat := u.stat } = u) ∧
        (idx + stride e = len.toNat →
          OnlyInst i { s with mem := t.mem, fg := .idle } t ∧
          t.trace = s.trace ++ [.result .fg (Instr.recvBlocking i addr len).w0 ⟨0, 0⟩] ∧
          bit v.ctrl Ctrl.re = false ∧ SameBut [Ctrl.re] u.ctrl v.ctrl ∧
          { v with ctrl := u.ctrl, stat := u.stat } = u))

/-! ## The dispatcher -/

/-- 44_interrupt_dispatcher.md R260, R261: when DISPATCH(i) is enabled. -/
def Obligations.DispatchEnabledByCauseAndLine : Prop :=
  ∀ (s : State) (i : Nat),
    enabled (.dispatch i) s = true ↔
      s.ic = .none ∧ ∃ u, s.inst[i]? = some u ∧ u.lineEn = true ∧
        ((bit u.stat Stat.rdrf = true ∧ bit u.ctrl Ctrl.rie = true) ∨
          (bit u.stat Stat.tdre = true ∧ bit u.ctrl Ctrl.tie = true) ∨
          (bit u.stat Stat.or = true ∧ bit u.ctrl Ctrl.orie = true) ∨
          (bit u.stat Stat.nf = true ∧ bit u.ctrl Ctrl.neie = true) ∨
          (bit u.stat Stat.fe = true ∧ bit u.ctrl Ctrl.feie = true) ∨
          (bit u.stat Stat.pf = true ∧ bit u.ctrl Ctrl.peie = true))

/-- 44_interrupt_dispatcher.md R263, R262, R267: receive-ready is serviced first, whatever else is pending. One character goes to
the progress offset; the last one disables the receive path, keeps Error(k), and fires RxDone. Where memory refuses the
character nothing happens (20_memory.md R81). -/
def Obligations.ReceiveServiceStoresCharacter : Prop :=
  ∀ (s : State) (i : Nat) (u : InstState),
    s.Inv → s.faults = [] → s.ic = .none → s.inst[i]? = some u → u.lineEn = true →
    bit u.stat Stat.rdrf = true → bit u.ctrl Ctrl.rie = true →
    ∃ c, u.cfg = some c ∧
      (s.codecStore (u.rx.addr.toNat + u.rx.progress.toNat) u.rdr.toNat (effw c) = none →
        ∀ t, ¬ Takes s (.dispatch i) t) ∧
      ∀ m, s.codecStore (u.rx.addr.toNat + u.rx.progress.toNat) u.rdr.toNat (effw c) = some m →
        ∃ t v, Takes s (.dispatch i) t ∧ t.inst[i]? = some v ∧
          OnlyInst i { s with mem := t.mem, ic := t.ic } t ∧ (∀ x, t.byteAt x = m.byteAt x) ∧
          (∀ x, x < u.rx.addr.toNat + u.rx.progress.toNat ∨
            u.rx.addr.toNat + u.rx.progress.toNat + stride (effw c) ≤ x → t.byteAt x = s.byteAt x) ∧
          bit v.stat Stat.rdrf = false ∧ SameBut [Stat.rdrf] u.stat v.stat ∧
          v.rx.addr = u.rx.addr ∧ v.rx.len = u.rx.len ∧
          v.rx.progress.toNat = u.rx.progress.toNat + stride (effw c) ∧
          { v with ctrl := u.ctrl, stat := u.stat, rx := u.rx } = u ∧
          (v.rx.progress ≠ u.rx.len → v.ctrl = u.ctrl ∧ v.rx.busy = true ∧ v.rx.status = u.rx.status ∧
            t.ic = .none ∧ t.trace = s.trace) ∧
          (v.rx.progress = u.rx.len →
            (∀ k ∈ [Ctrl.rie, Ctrl.orie, Ctrl.neie, Ctrl.feie, Ctrl.peie, Ctrl.re], bit v.ctrl k = false) ∧
            SameBut [Ctrl.rie, Ctrl.orie, Ctrl.neie, Ctrl.feie, Ctrl.peie, Ctrl.re] u.ctrl v.ctrl ∧
            v.rx.busy = false ∧ (u.rx.status = .busy → v.rx.status = .ready) ∧
            (u.rx.status ≠ .busy → v.rx.status = u.rx.status) ∧
            t.trace = s.trace ++ [.callback i .rxDone u.cb.rxDone] ∧
            (u.cb.rxDone = 0 → t.ic = .none) ∧
            (u.cb.rxDone ≠ 0 → t.ic = .active i .rxDone (Params.handler s.params i u.cb.rxDone .rxDone)))

/-- 44_interrupt_dispatcher.md R264, R262, R267: transmit-ready is serviced when receive-ready does not hold. One character goes
to TDR; the last one clears TIE, keeps TE, and fires TxDone. -/
def Obligations.TransmitServiceLoadsCharacter : Prop :=
  ∀ (s : State) (i : Nat) (u : InstState),
    s.Inv → s.faults = [] → s.ic = .none → s.inst[i]? = some u → u.lineEn = true →
    rxReady u = false → bit u.stat Stat.tdre = true → bit u.ctrl Ctrl.tie = true →
    ∃ c, u.cfg = some c ∧
      (s.codecLoad (u.tx.addr.toNat + u.tx.progress.toNat) (effw c) = none → ∀ t, ¬ Takes s (.dispatch i) t) ∧
      ∀ x, s.codecLoad (u.tx.addr.toNat + u.tx.progress.toNat) (effw c) = some x →
        ∃ t v, Takes s (.dispatch i) t ∧ t.inst[i]? = some v ∧ OnlyInst i { s with ic := t.ic } t ∧
          v.tdr.toNat = x ∧ bit v.stat Stat.tdre = false ∧ bit v.stat Stat.tc = false ∧
          SameBut [Stat.tdre, Stat.tc] u.stat v.stat ∧
          v.tx.addr = u.tx.addr ∧ v.tx.len = u.tx.len ∧
          v.tx.progress.toNat = u.tx.progress.toNat + stride (effw c) ∧
          { v with ctrl := u.ctrl, stat := u.stat, tdr := u.tdr, tx := u.tx } = u ∧
          (v.tx.progress ≠ u.tx.len → v.ctrl = u.ctrl ∧ v.tx.busy = true ∧ v.tx.status = .busy ∧
            t.ic = .none ∧ t.trace = s.trace) ∧
          (v.tx.progress = u.tx.len →
            bit v.ctrl Ctrl.tie = false ∧ SameBut [Ctrl.tie] u.ctrl v.ctrl ∧
            v.tx.busy = false ∧ v.tx.status = .ready ∧
            t.trace = s.trace ++ [.callback i .txDone u.cb.txDone] ∧
            (u.cb.txDone = 0 → t.ic = .none) ∧
            (u.cb.txDone ≠ 0 → t.ic = .active i .txDone (Params.handler s.params i u.cb.txDone .txDone)))

/-- 44_interrupt_dispatcher.md R265, R262, R267: the error is serviced when neither other cause holds. All four flags and all four
enables are cleared, the receive stays in flight with its progress, and the classified kind is recorded and fired. -/
def Obligations.ErrorServiceReportsKind : Prop :=
  ∀ (s : State) (i : Nat) (u : InstState),
    s.Inv → s.faults = [] → s.ic = .none → s.inst[i]? = some u → u.lineEn = true →
    rxReady u = false → txReady u = false → errAny u = true →
    ∃ k t v, classify s.params.errPriority u.stat = some k ∧ Takes s (.dispatch i) t ∧ t.inst[i]? = some v ∧
      OnlyInst i { s with ic := t.ic } t ∧
      (∀ b ∈ [Stat.pf, Stat.fe, Stat.nf, Stat.or], bit v.stat b = false) ∧
      SameBut [Stat.pf, Stat.fe, Stat.nf, Stat.or] u.stat v.stat ∧
      (∀ b ∈ [Ctrl.orie, Ctrl.neie, Ctrl.feie, Ctrl.peie], bit v.ctrl b = false) ∧
      SameBut [Ctrl.orie, Ctrl.neie, Ctrl.feie, Ctrl.peie] u.ctrl v.ctrl ∧
      v.rx = { u.rx with status := .error k } ∧ v.rx.busy = true ∧
      { v with ctrl := u.ctrl, stat := u.stat, rx := u.rx } = u ∧
      t.trace = s.trace ++ [.callback i (.err k) u.cb.err] ∧
      (u.cb.err = 0 → t.ic = .none) ∧
      (u.cb.err ≠ 0 → t.ic = .active i (.err k) (Params.handler s.params i u.cb.err (.err k)))

/-- 44_interrupt_dispatcher.md R266, 00_scope.md R10: the flag of each kind, and for every strict total order on the kinds Classify
reports the first kind whose flag is set, and reports one whenever a flag is set. That it reports none where no flag is set is
the model's choice (log 10): R266 calls Classify undefined there. -/
def Obligations.ClassifierFollowsPriority : Prop :=
  flagOf .overrun = Stat.or ∧ flagOf .framing = Stat.fe ∧ flagOf .parity = Stat.pf ∧ flagOf .noise = Stat.nf ∧
  Stat.or = 19 ∧ Stat.fe = 17 ∧ Stat.pf = 16 ∧ Stat.nf = 18 ∧
  ∀ (p : Params) (n : Nat) (stat : Word), Params.wf p n →
    (∀ k, classify p.errPriority stat = some k ↔
      bit stat (flagOf k) = true ∧
        ∀ k', p.errPriority.idxOf k' < p.errPriority.idxOf k → bit stat (flagOf k') = false) ∧
    (classify p.errPriority stat = none ↔
      bit stat Stat.or = false ∧ bit stat Stat.fe = false ∧ bit stat Stat.pf = false ∧ bit stat Stat.nf = false)

/-! ## The line side -/

/-- 45_line_side.md R293: TX_LOAD is taken exactly with TE set, a character in TDR and the shift register idle; it makes the
frame of TDR's data bits, the generated parity and the stop bits. -/
def Obligations.TxLoadMakesFrame : Prop :=
  ∀ (s : State) (i : Nat) (u : InstState), s.faults = [] → s.inst[i]? = some u →
    ((bit u.ctrl Ctrl.te = false ∨ bit u.stat Stat.tdre = true ∨ u.txShift ≠ none) →
      ∀ t, ¬ Takes s (.txLoad i) t) ∧
    (bit u.ctrl Ctrl.te = true → bit u.stat Stat.tdre = false → u.txShift = none →
      let w := effwCtrl u.ctrl - (if bit u.ctrl Ctrl.pe then 1 else 0)
      let d := u.tdr.toNat % 2 ^ w
      ∃ t v, Takes s (.txLoad i) t ∧ t.inst[i]? = some v ∧ OnlyInst i s t ∧ t.trace = s.trace ∧
        v.txShift = some ⟨d, w, if bit u.ctrl Ctrl.pe then some (parityBit d (bit u.ctrl Ctrl.pt)) else none,
          if bit u.baud Baud.sbns then .two else .one⟩ ∧
        bit v.stat Stat.tdre = true ∧ SameBut [Stat.tdre] u.stat v.stat ∧
        { v with txShift := u.txShift, stat := u.stat } = u)

/-- 45_line_side.md R294: TX_SHIFT_DONE puts the frame on the wire, with TE set or not, and sets TC when no character waits. -/
def Obligations.TxShiftDoneSendsFrame : Prop :=
  ∀ (s : State) (i : Nat) (u : InstState), s.faults = [] → s.inst[i]? = some u →
    (u.txShift = none → ∀ t, ¬ Takes s (.txShiftDone i) t) ∧
    (∀ f, u.txShift = some f →
      ∃ t v, Takes s (.txShiftDone i) t ∧ t.inst[i]? = some v ∧ OnlyInst i s t ∧ t.trace = s.trace ∧
        v.wire = u.wire ++ [f] ∧ v.txShift = none ∧
        bit v.stat Stat.tc = (bit u.stat Stat.tdre || bit u.stat Stat.tc) ∧ SameBut [Stat.tc] u.stat v.stat ∧
        { v with txShift := u.txShift, stat := u.stat, wire := u.wire } = u)

/-- 45_line_side.md R296 to R299: a frame is lost with RE clear, is an overrun with RDRF set, and is otherwise latched with its
errors; the error flags are sticky. -/
def Obligations.RxFrameLatchesCharacter : Prop :=
  ∀ (s : State) (i : Nat) (f : RxFrame) (u : InstState),
    s.faults = [] → s.inst[i]? = some u →
    (bit u.ctrl Ctrl.re = false → Takes s (.rxFrame i f) s) ∧
    (bit u.ctrl Ctrl.re = true → ∃ t v, Takes s (.rxFrame i f) t ∧ t.inst[i]? = some v ∧
      OnlyInst i s t ∧ t.trace = s.trace ∧
      (bit u.stat Stat.rdrf = true →
        bit v.stat Stat.or = true ∧ SameBut [Stat.or] u.stat v.stat ∧ { v with stat := u.stat } = u) ∧
      (bit u.stat Stat.rdrf = false →
        let e := effwCtrl u.ctrl
        let x := f.bits.toNat % 2 ^ e
        v.rdr.toNat = x ∧ bit v.stat Stat.rdrf = true ∧
        bit v.stat Stat.fe = (bit u.stat Stat.fe || !f.stopOk) ∧
        bit v.stat Stat.nf = (bit u.stat Stat.nf || f.noisy) ∧
        bit v.stat Stat.pf = (bit u.stat Stat.pf ||
          (bit u.ctrl Ctrl.pe && (parityBit (x % 2 ^ (e - 1)) (bit u.ctrl Ctrl.pt) != x.testBit (e - 1)))) ∧
        SameBut [Stat.rdrf, Stat.fe, Stat.nf, Stat.pf] u.stat v.stat ∧
        { v with rdr := u.rdr, stat := u.stat } = u))

/-- 45_line_side.md R295, 00_scope.md R14: with even parity the data bits and the parity bit together hold an even number of 1s,
with odd parity an odd number; popcount is the number of 1 bits. -/
def Obligations.ParityBitMakesCountEvenOrOdd : Prop :=
  ∀ d : Nat, d < 2 ^ 32 → popcount d = (Nat.digits 2 d).sum ∧
    ∀ pt : Bool, ((Nat.digits 2 d).sum + (if parityBit d pt then 1 else 0)) % 2 = if pt then 1 else 0

/-! ## Reset -/

/-- 70_reset_and_hazards.md R360: the values power-on reset gives every instance and the shared state, for every number of
instances, parameters and memory; after it FG may issue a command and no DISPATCH is enabled. -/
def Obligations.PowerOnValues : Prop :=
  ∀ (n : Nat) (p : Params) (mem : List Host.Cell),
    let s := State.powerOn n p mem
    s.inst.length = n ∧ s.fg = .idle ∧ s.ic = .none ∧ s.faults = [] ∧ s.trace = [] ∧ s.mem = mem ∧
    (∀ q, enabled (.command q) s = true) ∧ (∀ i, enabled (.dispatch i) s = false) ∧
    ∀ (i : Nat) (u : InstState), s.inst[i]? = some u →
      u.cfg = none ∧ u.ctrl = 0x00000000 ∧ u.stat = 0x00C00000 ∧ u.baud = 0x0F000004 ∧ u.rdr = 0 ∧ u.tdr = 0 ∧
      u.matchReg = 0 ∧ u.txShift = none ∧ u.lineEn = false ∧ u.tx = ⟨0, 0, 0, false, .uninitialized⟩ ∧
      u.rx = ⟨0, 0, 0, false, .uninitialized⟩ ∧ u.cb = ⟨0, 0, 0⟩ ∧ u.wire = []

/-- The invariant holds after power-on reset, for every legal number of instances, parameters and canonical memory. -/
def Obligations.PowerOnHasInvariant : Prop :=
  ∀ (n : Nat) (p : Params) (mem : List Host.Cell), 1 ≤ n → n ≤ 16 → Params.wf p n → Memory.wf mem →
    (State.powerOn n p mem).Inv

/-- The invariant holds at State.reset. -/
def Obligations.ResetHasInvariant : Prop := State.reset.Inv

/-! ## Whole-machine rules -/

/-- Every step keeps the invariant of Safety.lean: the register layout and widths (10_state.md R39 to R43), what the
configuration programs (R51; 41_framing_codec.md R164; 40_divisor_search.md R147), the transfer buffers (R36, R37), TC
(45_line_side.md R294), one transfer per direction (43_transfer_ops.md R230), canonical memory. -/
def Obligations.EveryStepKeepsInvariant : Prop := ∀ s t : State, s.Inv → step s = .next t → t.Inv

/-- 60_exceptions.md R321, 10_state.md R37: from a state with the invariant no step finds one broken: "no rule makes one fail".
Where the check is made is the model's choice (log 10). -/
def Obligations.InvariantIsNeverFoundBroken : Prop :=
  ∀ s t : State, s.Inv → step s = .next t → FaultName.invariantBroken ∉ t.faults

/-- A step changes no parameter and no number of instances, and the logs only grow (10_state.md R47, R48). -/
def Obligations.LogsOnlyGrow : Prop :=
  ∀ s t : State, step s = .next t →
    t.params = s.params ∧ t.inst.length = s.inst.length ∧ s.trace <+: t.trace ∧ s.faults <+: t.faults ∧
      ∀ (i : Nat) (u v : InstState), s.inst[i]? = some u → t.inst[i]? = some v → u.wire <+: v.wire

/-- A command touches its own instance alone, and no command but a status of its own context: memory, the parameters, the
agenda and the handler are as before, and FG's loop changes only where a blocking command is accepted (10_state.md R30;
60_exceptions.md R334). -/
def Obligations.CommandTouchesItsInstanceAlone : Prop :=
  ∀ (c : Instr) (s t : State), exec c s = .next t →
    t.inst.length = s.inst.length ∧ (∀ j, j ≠ c.inst → t.inst[j]? = s.inst[j]?) ∧
      (∀ a, t.byteAt a = s.byteAt a) ∧ t.params = s.params ∧ t.agenda = s.agenda ∧ t.ic = s.ic ∧
      (c.op ≠ .sendBlocking → c.op ≠ .recvBlocking → t.fg = s.fg)

/-- Which commands may write what (the "written by" columns of 10_state.md R32, R38, R39 to R43, R55), the thirteen fields of CTRL
and the fields of STAT and BAUD each by itself: every other command leaves it. -/
def Obligations.OnlyListedCommandsWrite : Prop :=
  ∀ (c : Instr) (s t : State) (i : Nat) (u v : InstState),
    exec c s = .next t → s.inst[i]? = some u → t.inst[i]? = some v →
    (c.op ∉ [.init, .setbaud, .deinit] → v.cfg = u.cfg ∧ v.baud = u.baud) ∧
    (c.op ∉ [.regCallback, .regErrCallback, .deinit] → v.cb = u.cb) ∧
    (c.op ∉ [.sendAsync, .recvAsync, .deinit] → v.lineEn = u.lineEn) ∧
    (c.op ∉ [.init, .deinit] → bit v.baud Baud.sbns = bit u.baud Baud.sbns) ∧
    (c.op ∉ [.init, .deinit, .abortSend, .abortRecv] → v.stat = u.stat) ∧
    (c.op ∉ [.init, .deinit] → ∀ k ∈ [Stat.pf, Stat.fe, Stat.nf, Stat.or], bit v.stat k = bit u.stat k) ∧
    (c.op ∉ [.init, .deinit, .abortRecv] → bit v.stat Stat.rdrf = bit u.stat Stat.rdrf) ∧
    (c.op ∉ [.init, .deinit, .abortSend] → ∀ k ∈ [Stat.tc, Stat.tdre], bit v.stat k = bit u.stat k) ∧
    (c.op ∉ [.init, .deinit] → v.rdr = u.rdr ∧ v.tdr = u.tdr ∧ v.txShift = u.txShift ∧ v.matchReg = u.matchReg) ∧
    (c.op ∉ [.init, .deinit, .sendAsync, .abortSend] → v.tx = u.tx) ∧
    (c.op ∉ [.init, .deinit, .recvAsync, .recvBlocking, .abortRecv] → v.rx = u.rx) ∧
    (c.op ∉ [.init, .deinit] →
      ∀ k ∈ [Ctrl.pt, Ctrl.pe, Ctrl.m, Ctrl.m7, Ctrl.m10], bit v.ctrl k = bit u.ctrl k) ∧
    (c.op ∉ [.init, .deinit, .rxEnable, .rxDisable, .recvBlocking, .recvAsync, .abortRecv] →
      bit v.ctrl Ctrl.re = bit u.ctrl Ctrl.re) ∧
    (c.op ∉ [.init, .deinit, .txEnable, .txDisable, .sendBlocking, .sendAsync, .abortSend] →
      bit v.ctrl Ctrl.te = bit u.ctrl Ctrl.te) ∧
    (c.op ∉ [.init, .deinit, .sendAsync, .abortSend] → bit v.ctrl Ctrl.tie = bit u.ctrl Ctrl.tie) ∧
    (c.op ∉ [.init, .deinit, .recvAsync, .abortRecv] →
      ∀ k ∈ [Ctrl.rie, Ctrl.peie, Ctrl.feie, Ctrl.neie, Ctrl.orie], bit v.ctrl k = bit u.ctrl k) ∧
    v.wire = u.wire

/-- The hardware events and FG's loop write no configuration, no width select or parity field, no BAUD, no slot, no line enable
and no MATCH; only a service of the dispatcher fires a callback, and only RX_FRAME writes RDR (10_state.md R32, R38, R39, R41 to
R43, R55). -/
def Obligations.EventsKeepConfiguration : Prop :=
  ∀ (ev : Event) (s t : State) (i : Nat) (u v : InstState),
    (∀ p, ev ≠ .command p) → ev ≠ .interrupt → offer ev s = some (.next t) → s.inst[i]? = some u → t.inst[i]? = some v →
    v.cfg = u.cfg ∧ v.baud = u.baud ∧ v.cb = u.cb ∧ v.lineEn = u.lineEn ∧ v.matchReg = u.matchReg ∧
      (∀ k ∈ [Ctrl.pt, Ctrl.pe, Ctrl.m, Ctrl.m7, Ctrl.m10], bit v.ctrl k = bit u.ctrl k) ∧
      ((∀ f, ev ≠ .rxFrame i f) → v.rdr = u.rdr) ∧ (ev ≠ .txShiftDone i → v.wire = u.wire) ∧
      ((∀ j, ev ≠ .dispatch j) → t.ic = s.ic ∧ v.tx = u.tx ∧ v.rx = u.rx)

/-- 30_encoding.md R112 to R114: every result packet a step returns has a result code 0..3, a status code 0..6, P0[31:16] = 0, and
P0[15:8] = 0 and P1 = 0 for every command but the two queries. That the queries, too, leave them 0 when they return
InvalidArgument is the model's choice for a legal packet (log 18; R119 says it of an illegal one). -/
def Obligations.ResultPacketsAreWellFormed : Prop :=
  ∀ (s t : State) (ctx : Ctx) (w0 : Word) (p : ResultPacket), step s = .next t →
    TraceEvent.result ctx w0 p ∈ t.trace → TraceEvent.result ctx w0 p ∉ s.trace →
    slice p.p0 7 0 ≤ 3 ∧ slice p.p0 15 8 ≤ 6 ∧ slice p.p0 31 16 = 0 ∧
      ((slice w0 7 0 ≠ 0x40 ∧ slice w0 7 0 ≠ 0x41) ∨ slice p.p0 7 0 = 2 → slice p.p0 15 8 = 0 ∧ p.p1 = 0)

/-- A frame in the shift register stays there until it is on the wire, unless an INIT or a DEINIT of its instance is delivered
(10_state.md R44, 42_configuration_ops.md R183, 45_line_side.md R294): no other step of any agent drops or changes it. -/
def Obligations.ShiftingFrameIsNotLost : Prop :=
  ∀ (ev : Event) (s t : State) (i : Nat) (u v : InstState) (f : TxFrame),
    Takes s ev t → s.inst[i]? = some u → u.txShift = some f → t.inst[i]? = some v →
    (v.txShift = some f ∧ v.wire = u.wire) ∨
      (ev = .txShiftDone i ∧ v.txShift = none ∧ v.wire = u.wire ++ [f]) ∨
      (v.txShift = none ∧ v.wire = u.wire ∧
        ((∃ a b, Delivers s ev (.init i a b)) ∨ Delivers s ev (.deinit i)))

/-- 45_line_side.md R301, a premise here (log 15): in every infinite run in which TX_SHIFT_DONE(i) is weakly fair, a frame in the
shift register is there until TX_SHIFT_DONE(i) puts it on the wire, or until an INIT or a DEINIT of its instance, delivered
while it is still there, drops it. -/
def Obligations.FairLineFinishesFrame : Prop :=
  ∀ (σ : Nat → State) (ε : Nat → Event) (i n : Nat) (u : InstState) (f : TxFrame),
    IsRun σ ε → WeaklyFair σ ε (.txShiftDone i) → (σ n).inst[i]? = some u → u.txShift = some f →
    ∃ m v, n ≤ m ∧
      (∀ k, n ≤ k → k ≤ m → ∃ x, (σ k).inst[i]? = some x ∧ x.txShift = some f ∧ x.wire = u.wire) ∧
      (σ (m + 1)).inst[i]? = some v ∧ v.txShift = none ∧
      ((ε m = .txShiftDone i ∧ v.wire = u.wire ++ [f]) ∨
        (v.wire = u.wire ∧
          ((∃ a b, Delivers (σ m) (ε m) (.init i a b)) ∨ Delivers (σ m) (ε m) (.deinit i))))
end

