-- ==== Sys2Proof/Tests/Slice0.lean ====
section
/-! SUPPORT. Tests of the model. Expected values are those of spec/95_test_vectors.md, whose ids stand in the docstrings, or are
worked out by hand from the rule named. The last part shows, for every statement with hypotheses, that they can be met. -/

set_option maxRecDepth 20000

namespace Sys2Proof.Tests
open Sys2Proof Sys2Proof.Machine

/-! ## Helpers -/

/-- The step answers a next state with this property. -/
def ends (r : Result) (p : State → Bool) : Bool :=
  match r with
  | .next t => p t
  | .fault _ => false
  | .refused _ => false

/-- The configuration of CFG-1: width 8, no parity, one stop bit, 115200 baud, fast clock. -/
def cfg8 : UartConfig := ⟨.w8, .disabled, .one, 115200, .fast⟩

/-- An instance after CFG-1. -/
def idle8 : InstState :=
  { InstState.reset with cfg := some cfg8, baud := 0x03020068, tx := .empty .ready, rx := .empty .ready }

/-- An instance after TRF-1: three bytes at 0x2000 to send. -/
def sending : InstState := { idle8 with ctrl := 0x00880000, lineEn := true, tx := ⟨0x2000, 3, 0, true, .busy⟩ }

/-- Instance 0 of P2 after step 3: width 9, four bytes at 0x4000 to receive (TRF-7). -/
def receiving : InstState :=
  { idle8 with cfg := some { cfg8 with width := .w9 }, ctrl := 0x0F240010, lineEn := true, rx := ⟨0x4000, 4, 0, true, .busy⟩ }

/-- The state after reset with instance 0 as given and the bytes of P1 and P4 in memory. -/
def at0 (u : InstState) : State :=
  { State.reset with
    inst := [u, .reset, .reset]
    mem := [(0x2000, 0x41), (0x2001, 0x42), (0x2002, 0x43), (0x4000, 0xAB), (0x4001, 0xFF)] }

/-- A handler of instance 0 is running, with no commands left. -/
def inHandler (s : State) : State := { s with ic := .active 0 .txDone [] }

/-- The state with one entry on the agenda. -/
def taking (s : State) (ev : Event) : State := { s with agenda := [ev] }

/-- MEM_ADMITS refuses exactly the address 0x4001, within the addresses used here. -/
def without4001 (s : State) : State := { s with params := { s.params with regions := [⟨0, 0x4001⟩, ⟨0x4002, 0x1000⟩] } }

/-- Instance 0 has this property. -/
def on0 (t : State) (p : InstState → Bool) : Bool := (t.inst[0]?).any p

/-! ## Well-formedness -/

/-- The check of WellFormed refuses an index that does not fit INST. -/
theorem test_wellFormed_refuses_16 : ¬ WellFormed (.deinit 16) := by decide
theorem test_wellFormed_accepts_15 : WellFormed (.deinit 15) := by decide

/-! ## Decoding: words written out from 30_encoding.md R111 and R118, and the ENC and ILL vectors -/

/-- ENC-1. -/
theorem test_decode_init : decode ⟨0x00000001, 0x80000021, 0x0001C200⟩ = .ok (.init 0 0x80000021 115200) := by decide
/-- ENC-17. -/
theorem test_decode_deinit : decode ⟨0x00000002, 7, 7⟩ = .ok (.deinit 0) := by decide
/-- ENC-13. -/
theorem test_decode_setbaud : decode ⟨0x00000003, 0, 0x00002580⟩ = .ok (.setbaud 0 9600) := by decide
/-- ENC-7. -/
theorem test_decode_sendBlocking : decode ⟨0x00000110, 0x00001000, 2⟩ = .ok (.sendBlocking 1 0x1000 2) := by decide
/-- ENC-6. -/
theorem test_decode_sendAsync : decode ⟨0x00000211, 0x20000000, 3⟩ = .ok (.sendAsync 2 0x20000000 3) := by decide
/-- R118 row 0x12, INST 1. -/
theorem test_decode_recvBlocking : decode ⟨0x00000112, 0x3000, 1⟩ = .ok (.recvBlocking 1 0x3000 1) := by decide
/-- ENC-8. -/
theorem test_decode_recvAsync : decode ⟨0x00000013, 0x4000, 4⟩ = .ok (.recvAsync 0 0x4000 4) := by decide
/-- ENC-15. -/
theorem test_decode_aborts :
    decode ⟨0x00000014, 1, 1⟩ = .ok (.abortSend 0) ∧ decode ⟨0x00000015, 1, 1⟩ = .ok (.abortRecv 0) := by decide
/-- ENC-16. -/
theorem test_decode_enables :
    decode ⟨0x00000020, 0, 0⟩ = .ok (.txEnable 0) ∧ decode ⟨0x00000021, 0, 0⟩ = .ok (.txDisable 0) ∧
      decode ⟨0x00000022, 0, 0⟩ = .ok (.rxEnable 0) ∧ decode ⟨0x00000023, 0, 0⟩ = .ok (.rxDisable 0) := by decide
/-- ENC-9 to ENC-11. -/
theorem test_decode_callbacks :
    decode ⟨0x00002130, 0x1234, 9⟩ = .ok (.regCallback 1 .rxDone 0x1234) ∧
      decode ⟨0x00001030, 0x77, 9⟩ = .ok (.regCallback 0 .txDone 0x77) ∧
      decode ⟨0x00000030, 0x99, 9⟩ = .ok (.regCallback 0 .error 0x99) ∧
      decode ⟨0x00000031, 0x99, 9⟩ = .ok (.regErrCallback 0 0x99) := by decide
/-- R118 row 0x40, INST 15; ENC-14. -/
theorem test_decode_queries :
    decode ⟨0x00000F40, 0, 0⟩ = .ok (.getTxStatus 15) ∧ decode ⟨0x00000241, 5, 5⟩ = .ok (.getRxStatus 2) := by decide
/-- ILL-1 to ILL-5. -/
theorem test_decode_illegal :
    decode ⟨0x00001011, 0, 0⟩ = .error .kindMisuse ∧ decode ⟨0x00000099, 0, 0⟩ = .error .unknownOpcode ∧
      decode ⟨0x00000000, 0, 0⟩ = .error .unknownOpcode ∧ decode ⟨0x00003030, 0, 0⟩ = .error .reservedKind ∧
      decode ⟨0x00040001, 0, 0⟩ = .error .reservedBits := by decide
/-- ENC-4, ENC-9 and ENC-12, assembled. -/
theorem test_assemble :
    assemble (.initSymbolic 1 ⟨.w7, .even, .two, 9600, .slow⟩) = ⟨0x00000101, 0x80000014, 0x00002580⟩ ∧
      assemble (.plain (.regCallback 1 .rxDone 0x1234)) = ⟨0x00002130, 0x00001234, 0⟩ ∧
      assemble (.unregister 0 .rxDone) = ⟨0x00002030, 0, 0⟩ ∧
      assemble (.setBaud 0 9600) = ⟨0x00000003, 0, 0x00002580⟩ := by decide

/-- ENC-1, ENC-4 and ENC-13 from text, and texts that are no line. -/
theorem test_assembleText :
    assembleText "INIT u1, 7, even, 2, slow, 9600" = some ⟨0x00000101, 0x80000014, 0x00002580⟩ ∧
      assembleText "CONFIGURE u0,8,none,1,fast,0x1C200" = some ⟨0x00000001, 0x80000021, 0x0001C200⟩ ∧
      assembleText "SET_BAUD u0, 9600" = some ⟨0x00000003, 0, 0x00002580⟩ ∧ assembleText "DEINIT u16" = none ∧
      assembleText "DEINIT" = none ∧ assembleText "SEND_ASYNC u0, 0x100000000, 1" = none := by decide

/-! ## Divisor search and codec -/

/-- DIV-1 to DIV-3, DIV-8, DIV-9, DIV-15. -/
theorem test_baseSearch :
    baseSearch 8000000 115200 = (23, 3) ∧ baseSearch 48000000 115200 = (4, 104) ∧ baseSearch 8000000 9600 = (7, 119) ∧
      baseSearch 8000000 3000000 = (4, 1) ∧ baseSearch 48000000 100 = (32, 8191) ∧
      baseSearch 8000000 230400 = (17, 2) := by decide
/-- DIV-10, DIV-25. -/
theorem test_override :
    divisorSearch (some 1) 48000000 115200 1 = (16, 26) ∧ divisorSearch (some 1) 48000000 115200 0 = (4, 104) ∧
      (candidateD 8000000 115200 23, candidateAch 8000000 115200 23, candidateErr 8000000 115200 23) = (3, 115942, 742) := by
  decide
/-- COD-1, COD-11. -/
theorem test_widths :
    effw ⟨.w7, .even, .one, 1, .slow⟩ = 8 ∧ effw ⟨.w10, .disabled, .one, 1, .slow⟩ = 10 ∧
      withFraming 0 ⟨.w7, .disabled, .one, 1, .slow⟩ = 0x00000800 ∧ withFraming 0 ⟨.w9, .odd, .one, 1, .slow⟩ = 0x00001003 ∧
      withFraming 0 ⟨.w8, .even, .one, 1, .slow⟩ = 0x00000012 := by decide
/-- COD-2 (byte 0xFF at 0x4001), COD-4, COD-5. -/
theorem test_codecLoad :
    (at0 idle8).codecLoad 0x4001 7 = some 0x7F ∧ (at0 idle8).codecLoad 0x4000 9 = some 0x1AB ∧
      (at0 idle8).codecLoad 0x4000 10 = some 0x3AB := by decide
/-- COD-8, COD-9. -/
theorem test_codecStore :
    ((at0 idle8).codecStore 0x7001 0x1AB 9).map (fun t => (t.byteAt 0x7001, t.byteAt 0x7002)) = some (0xAB, 0x01) ∧
      ((at0 idle8).codecStore 0x4000 0x0CD 9).map (fun t => (t.byteAt 0x4000, t.byteAt 0x4001)) = some (0xCD, 0x00) ∧
      ((at0 idle8).codecStore 0x4000 0x3AB 10).map (fun t => (t.byteAt 0x4000, t.byteAt 0x4001)) = some (0xAB, 0x03) := by
  decide

/-! ## Commands -/

/-- CFG-1: the whole instance. -/
theorem test_init : ends (exec (.init 0 0x80000021 115200) State.reset) (fun t => decide (t.inst[0]? = some idle8)) = true := by
  decide
/-- CFG-2 to CFG-7: nothing changes but the log. -/
theorem test_init_refused :
    ([(.init 0 0x00000021 115200), (.init 0 0x80000027 115200), (.init 0 0x8000002D 115200), (.init 0 0x80000061 115200),
      (.init 0 0x80000021 0), (.init 3 0x80000021 115200)] : List Instr).all (fun c =>
        ends (exec c State.reset) fun t => decide (t = { State.reset with trace := [.result .fg c.w0 ⟨2, 0⟩] })) = true := by
  decide
/-- CFG-25. -/
theorem test_deinit : ends (exec (.deinit 0) (at0 sending)) (fun t => decide (t.inst[0]? = some InstState.reset)) = true := by
  decide
/-- CFG-9. -/
theorem test_setbaud :
    ends (exec (.setbaud 0 9600) (at0 idle8)) (fun t => on0 t fun u => u.baud == 0x030204E2) = true := by decide
/-- CFG-8, CFG-24. -/
theorem test_setbaud_stops :
    ends (exec (.setbaud 0 9600) State.reset) (fun t => decide (t.trace = [.result .fg 3 ⟨3, 0⟩])) = true ∧
      ends (exec (.setbaud 0 9600) (at0 sending)) (fun t => decide (t.faults = [.baudChangeDuringTransfer])) = true := by decide
/-- TRF-11. -/
theorem test_sendBlocking :
    ends (exec (.sendBlocking 0 0x1000 2) (at0 idle8)) (fun t => decide (t.fg = .sendBlk 0 0x1000 2 8 0 .waitTdre) &&
      decide (t.trace = []) && on0 t fun u => u.ctrl == 0x00080000) = true := by decide
/-- TRF-13: the check of the context comes first. -/
theorem test_sendBlocking_handler :
    ends (exec (.sendBlocking 9 0 0) (inHandler (at0 idle8)))
      (fun t => decide (t.faults = [.blockingInInterruptContext]) && decide (t.trace = [])) = true := by decide
/-- TRF-1. -/
theorem test_sendAsync : ends (exec (.sendAsync 0 0x2000 3) (at0 idle8)) (fun t => decide (t.inst[0]? = some sending)) = true := by
  decide
/-- TRF-4. -/
theorem test_sendAsync_wrap :
    ends (exec (.sendAsync 0 0xFFFFFFFF 2) (at0 idle8)) (fun t => decide (t.trace = [.result .fg 0x11 ⟨2, 0⟩])) = true ∧
      ends (exec (.sendAsync 0 0xFFFFFFFF 1) (at0 idle8)) (fun t => decide (t.trace = [.result .fg 0x11 ⟨1, 0⟩])) = true := by
  decide
/-- TRF-17. -/
theorem test_recvBlocking :
    ends (exec (.recvBlocking 0 0x3000 1) (at0 { idle8 with rx := .empty (.error .noise) }))
      (fun t => decide (t.fg = .recvBlk 0 0x3000 1 8 0) && on0 t fun u => u.ctrl == 0x00040000 && u.rx.status == .ready) = true := by
  decide
/-- TRF-7. -/
theorem test_recvAsync :
    ends (exec (.recvAsync 0 0x4000 4) (at0 { receiving with ctrl := 0x00000010, lineEn := false, rx := .empty .ready }))
      (fun t => decide (t.inst[0]? = some receiving)) = true := by decide
/-- TRF-6. -/
theorem test_recvAsync_stride :
    ends (exec (.recvAsync 0 0x4000 3) (at0 { receiving with ctrl := 0x00000010, rx := .empty .ready }))
      (fun t => decide (t.trace = [.result .fg 0x13 ⟨2, 0⟩])) = true := by decide
/-- TRF-8, TRF-9. -/
theorem test_abortSend :
    ends (exec (.abortSend 0) (at0 { sending with stat := 0, tdr := 0x41 })) (fun t => on0 t fun u =>
      u.tx == ⟨0, 0, 0, false, .ready⟩ && u.ctrl == 0 && u.stat == 0x00C00000) = true ∧
    ends (exec (.abortSend 0) (at0 { sending with stat := 0x00800000, txShift := some ⟨0x41, 8, none, .one⟩ }))
      (fun t => on0 t fun u => u.stat == 0x00800000 && u.txShift == some ⟨0x41, 8, none, .one⟩) = true := by decide
/-- R228: RDRF is dropped, the error flags stay. -/
theorem test_abortRecv :
    ends (exec (.abortRecv 0) (at0 { receiving with stat := 0x00E80000 })) (fun t => on0 t fun u =>
      u.rx == ⟨0, 0, 0, false, .ready⟩ && u.ctrl == 0x00000010 && u.stat == 0x00C80000) = true := by decide
/-- CFG-17, CFG-20; R187: TX_DISABLE during a send keeps TIE. -/
theorem test_txEnable :
    ends (exec (.txEnable 0) (at0 idle8)) (fun t => on0 t fun u => u.ctrl == 0x00080000) = true ∧
      ends (exec (.txEnable 0) State.reset) (fun t => decide (t.trace = [.result .fg 0x20 ⟨3, 0⟩])) = true := by decide
theorem test_txDisable :
    ends (exec (.txDisable 0) (at0 sending)) (fun t => on0 t fun u => u.ctrl == 0x00800000 && u.tx.busy) = true := by decide
/-- R188, R189. -/
theorem test_rxEnable : ends (exec (.rxEnable 0) (at0 idle8)) (fun t => on0 t fun u => u.ctrl == 0x00040000) = true := by decide
theorem test_rxDisable :
    ends (exec (.rxDisable 0) (at0 receiving)) (fun t => on0 t fun u => u.ctrl == 0x0F200010 && u.rx.busy) = true := by decide
/-- CFG-14: a registration before INIT; each kind has its slot. -/
theorem test_regCallback :
    ends (exec (.regCallback 0 .rxDone 0x55) State.reset) (fun t => on0 t fun u => u.cb == ⟨0, 0, 0x55⟩) = true ∧
      ends (exec (.regCallback 0 .txDone 0x77) State.reset) (fun t => on0 t fun u => u.cb == ⟨0, 0x77, 0⟩) = true := by decide
theorem test_regErrCallback :
    ends (exec (.regErrCallback 1 0x99) State.reset)
      (fun t => decide ((t.inst[1]?).map (fun u => u.cb) = some ⟨0x99, 0, 0⟩)) = true := by decide
/-- P1 step 5; P1 step 15. -/
theorem test_getTxStatus :
    ends (exec (.getTxStatus 0) (at0 { sending with tx := ⟨0x2000, 3, 1, true, .busy⟩ }))
        (fun t => decide (t.trace = [.result .fg 0x40 ⟨0x200, 1⟩])) = true ∧
      ends (exec (.getTxStatus 0) (at0 { sending with tx := ⟨0x2000, 3, 3, false, .ready⟩ }))
        (fun t => decide (t.trace = [.result .fg 0x40 ⟨0x100, 3⟩])) = true := by decide
/-- P3 step 8 from the handler; P3b step 10. -/
theorem test_getRxStatus :
    ends (exec (.getRxStatus 0) (inHandler (at0 { receiving with rx := ⟨0x5000, 4, 1, true, .error .overrun⟩ })))
        (fun t => decide (t.trace = [.result .ic 0x41 ⟨0x200, 1⟩])) = true ∧
      ends (exec (.getRxStatus 0) (at0 { receiving with rx := ⟨0x5000, 2, 2, false, .error .overrun⟩ }))
        (fun t => decide (t.trace = [.result .fg 0x41 ⟨0x300, 2⟩])) = true := by decide

/-! ## Steps of the agents -/

/-- ILL-6: an illegal packet of a blocking opcode, from a handler, is no fault. -/
theorem test_illegal_from_handler :
    ends (step (taking { at0 idle8 with ic := .active 0 .txDone [⟨0x00001010, 0, 0⟩] } .interrupt))
      (fun t => decide (t.trace = [.result .ic 0x1010 ⟨2, 0⟩]) && decide (t.faults = [])) = true := by decide
/-- 92_eei_decisions.md D34: the event carries the instance, so one handle may run another handler on each instance. The last
entry, for every instance, is the handler of P3. -/
theorem test_handler_by_instance :
    let p : Params := { Params.default with handlers :=
      [⟨some 0, 0x77, .txDone, [⟨0x14, 0, 0⟩]⟩, ⟨some 1, 0x77, .txDone, [⟨0x114, 0, 0⟩]⟩,
        ⟨none, 0x99, .err .overrun, [⟨0x41, 0, 0⟩, ⟨0x15, 0, 0⟩]⟩] }
    Params.handler p 0 0x77 .txDone = [⟨0x14, 0, 0⟩] ∧ Params.handler p 1 0x77 .txDone = [⟨0x114, 0, 0⟩] ∧
      Params.handler p 2 0x77 .txDone = [] ∧ Params.handler p 2 0x99 (.err .overrun) = [⟨0x41, 0, 0⟩, ⟨0x15, 0, 0⟩] := by
  decide
/-- P6 step 5. -/
theorem test_fault_from_handler :
    ends (step (taking { at0 idle8 with ic := .active 0 .txDone [⟨0x10, 0x2000, 1⟩] } .interrupt))
        (fun t => decide (t.faults = [.blockingInInterruptContext]) && decide (t.ic = .active 0 .txDone [])) = true := by decide
/-- MEM-4. -/
theorem test_fault_ends_run :
    step { at0 idle8 with faults := [.blockingInInterruptContext] } = .fault (.halted .blockingInInterruptContext) := rfl
/-- P1 step 4. -/
theorem test_dispatch_tx :
    ends (step (taking (at0 sending) (.dispatch 0)))
      (fun t => on0 t fun u => u.tdr == 0x041 && u.stat == 0 && u.tx.progress == 1) = true := by decide
/-- P1 step 10. -/
theorem test_dispatch_tx_last :
    ends (step (taking (at0 { sending with cb := ⟨0, 0x77, 0⟩, tx := ⟨0x2000, 3, 2, true, .busy⟩ }) (.dispatch 0)))
      (fun t => decide (t.ic = .active 0 .txDone []) && decide (t.trace = [.callback 0 .txDone 0x77]) &&
        on0 t fun u => u.tdr == 0x043 && u.ctrl == 0x00080000 && u.tx == ⟨0x2000, 3, 3, false, .ready⟩) = true := by decide
/-- P2 step 5. -/
theorem test_dispatch_rx :
    ends (step (taking (at0 { receiving with rdr := 0x1AB, stat := 0x00E00000 }) (.dispatch 0)))
      (fun t => t.byteAt 0x4000 == 0xAB && t.byteAt 0x4001 == 0x01 &&
        on0 t fun u => u.rx.progress == 2 && u.stat == 0x00C00000) = true := by decide
/-- P3 step 7. -/
theorem test_dispatch_err :
    ends (step (taking (at0 { receiving with rx := ⟨0x5000, 4, 2, true, .busy⟩, stat := 0x00C80000 }) (.dispatch 0)))
      (fun t => decide (t.trace = [.callback 0 (.err .overrun) 0]) && decide (t.ic = .none) &&
        on0 t fun u => u.stat == 0x00C00000 && u.ctrl == 0x00240010 && u.rx == ⟨0x5000, 4, 2, true, .error .overrun⟩) = true := by
  decide
/-- MEM-2: the whole step is stuck, nothing is written. -/
theorem test_dispatch_stuck :
    let s := without4001 (at0 { receiving with rdr := 0x0CD, stat := 0x00E00000 })
    (enabled (.dispatch 0) s && (offer (.dispatch 0) s).isNone &&
      ends (step (taking s (.dispatch 0))) fun t => decide (t = s)) = true := by decide
/-- DSP-7 to DSP-10. -/
theorem test_classify :
    let order := Params.default.errPriority
    classify order 0x000A0000 = some .overrun ∧ classify order 0x00070000 = some .framing ∧
      classify order 0x00050000 = some .parity ∧ classify order 0x00040000 = some .noise := by decide
/-- LIN-3, LIN-5. -/
theorem test_txLoad :
    frameOf { idle8 with ctrl := 0x00080012, tdr := 0x141 } = ⟨0x41, 8, some false, .one⟩ ∧
      frameOf { idle8 with ctrl := 0x00080002, baud := 0x06022077, tdr := 0x0AA } = ⟨0x2A, 7, some true, .two⟩ := by decide
/-- LIN-2, LIN-17. -/
theorem test_txShiftDone :
    txShifted ⟨0x41, 8, none, .one⟩ { idle8 with stat := 0x00800000, txShift := some ⟨0x41, 8, none, .one⟩ } =
        { idle8 with wire := [⟨0x41, 8, none, .one⟩] } ∧
      (txShifted ⟨0x41, 8, none, .one⟩ { idle8 with stat := 0 }).stat = 0 := by decide
/-- LIN-8, LIN-11. -/
theorem test_rxFrame :
    (rxReceived ⟨0x141, true, false⟩ { idle8 with ctrl := 0x00040012 }).stat = 0x00E10000 ∧
      (rxReceived ⟨0x3FF, false, true⟩ { idle8 with ctrl := 0x00040800 }).stat = 0x00E60000 ∧
      (rxReceived ⟨0x3FF, false, true⟩ { idle8 with ctrl := 0x00040800 }).rdr = 0x07F := by decide
/-- LIN-12, LIN-13. -/
theorem test_rxFrame_lost :
    rxReceived ⟨0x42, true, false⟩ idle8 = idle8 ∧
      rxReceived ⟨0x42, true, false⟩ { idle8 with ctrl := 0x00040000, stat := 0x00E00000, rdr := 0x41 } =
        { idle8 with ctrl := 0x00040000, stat := 0x00E80000, rdr := 0x41 } := by decide
/-- LIN-7. -/
theorem test_parity : (parityBit 0x41 false, parityBit 0x41 true, parityBit 0x43 false) = (false, true, true) := by decide
/-- P5 steps 7 and 10. -/
theorem test_blocking_send :
    ends (step (taking { at0 idle8 with fg := .sendBlk 0 0x2000 2 8 1 .waitTdre } .foreground))
        (fun t => decide (t.fg = .sendBlk 0 0x2000 2 8 1 .waitTc) && on0 t fun u => u.tdr == 0x42 && u.stat == 0) = true ∧
      ends (step (taking { at0 { idle8 with ctrl := 0x00080000 } with fg := .sendBlk 0 0x2000 2 8 1 .waitTc } .foreground))
        (fun t => decide (t.fg = .idle) && decide (t.trace = [.result .fg 0x10 ⟨0, 0⟩]) && on0 t fun u => u.ctrl == 0) = true := by
  decide
/-- TRF-15. -/
theorem test_blocking_receive :
    ends (step (taking { at0 { idle8 with ctrl := 0x00040000, rdr := 0x5A, stat := 0x00E00000 } with
        fg := .recvBlk 0 0x3000 1 8 0 } .foreground))
      (fun t => decide (t.fg = .idle) && t.byteAt 0x3000 == 0x5A && decide (t.trace = [.result .fg 0x12 ⟨0, 0⟩]) &&
        on0 t fun u => u.ctrl == 0 && u.stat == 0x00C00000) = true := by decide
/-- MEM-3, and a write of what an unlisted address reads as. -/
theorem test_hostWrite :
    ends (step (taking (at0 sending) (.hostWrite 0x2002 0x5A))) (fun t => t.byteAt 0x2002 == 0x5A) = true ∧
      ends (step (taking (at0 sending) (.hostWrite 0x4001 0)))
        (fun t => decide (t.mem = [(0x2000, 0x41), (0x2001, 0x42), (0x2002, 0x43), (0x4000, 0xAB)])) = true := by decide
/-- A packet placed at reset is the first one delivered. -/
theorem test_withFetchWord :
    step (State.reset.withFetchWord 96 (0x0001C200 * 2 ^ 64 + 0x80000021 * 2 ^ 32 + 0x00000001)) =
      exec (.init 0 0x80000021 115200) State.reset := rfl

/-! ## Witnesses: the hypotheses of each statement, and of each of its clauses, are met by something -/

/-- The state `at0 u` with DISPATCH(0) next on the agenda. -/
def dispatching (u : InstState) : State := taking (at0 u) (.dispatch 0)

theorem witness_DecodeOfEncode :
    WellFormed (.regCallback 15 .rxDone 0xFFFFFFFF) ∧ WellFormed (.init 0 0 0) ∧ WellFormed (.getRxStatus 15) := by decide

theorem witness_EncodeOfDecode :
    decode ⟨0x00002F30, 0xFFFFFFFF, 7⟩ = .ok (.regCallback 15 .rxDone 0xFFFFFFFF) ∧
      readsArg0 (.regCallback 15 .rxDone 0xFFFFFFFF) = true ∧
      decode ⟨0x00000003, 7, 0xFFFFFFFF⟩ = .ok (.setbaud 0 0xFFFFFFFF) ∧ readsArg1 (.setbaud 0 0xFFFFFFFF) = true := by decide

theorem witness_IllegalPacketsAnswerInvalidArgument :
    decode ⟨0x00000042, 0, 0⟩ = .error .unknownOpcode ∧ decode ⟨0x80000001, 0, 0⟩ = .error .reservedBits ∧
      decode ⟨0x00003041, 0, 0⟩ = .error .kindMisuse ∧ decode ⟨0x00003F30, 0, 0⟩ = .error .reservedKind := by decide

theorem witness_PseudoCommandsExpand :
    readInstance ['u', '1', '5'] = some 15 ∧ readWord ['9', '6', '0', '0'] = some 9600 ∧
      (Instr.regErrCallback 2 7) ∈ [Instr.regCallback 2 .error 7, .regErrCallback 2 7] := by decide

theorem witness_ConfigurationWordFields :
    decodeConfig 0x80000003 1 = some ⟨.w10, .disabled, .one, 1, .slow⟩ ∧
      decodeConfig 0x8000003A 0xFFFFFFFF = some ⟨.w9, .odd, .two, 0xFFFFFFFF, .fast⟩ ∧
      decodeConfig 0x00000003 1 = none ∧ decodeConfig 0xC0000003 1 = none ∧ decodeConfig 0x8000000C 1 = none ∧
      decodeConfig 0x80000003 0 = none ∧ decodeConfig 0x80000007 1 = none := by decide

theorem witness_ConfigurationWordRoundTrip :
    let c : UartConfig := ⟨.w10, .disabled, .two, 0xFFFFFFFF, .fast⟩
    c.baud ≠ 0 ∧ (c.width = .w10 → c.parity = .disabled) := by decide

theorem witness_StepRunsForegroundCommand :
    let p : Packet := ⟨0x00000101, 0x80000025, 0x0001C200⟩
    let s := taking State.reset (.command p)
    NextUp s (.command p) [] ∧ s.ic = .none ∧ s.fg = .idle ∧ decode p = .ok (.init 1 0x80000025 115200) ∧
      WellFormed (.init 1 0x80000025 115200) ∧ decode ⟨0x00000099, 0, 0⟩ = .error .unknownOpcode ∧
      NextUp (taking State.reset (.command ⟨0x00000099, 0, 0⟩)) (.command ⟨0x00000099, 0, 0⟩) [] := by decide

theorem witness_StepRunsHandlerCommand :
    let p : Packet := ⟨0x00000015, 0, 0⟩
    let s := taking { at0 idle8 with ic := .active 0 .txDone [p] } .interrupt
    NextUp s .interrupt [] ∧ s.ic = .active 0 .txDone (p :: []) ∧ decode p = .ok (.abortRecv 0) ∧
      WellFormed (.abortRecv 0) ∧ decode ⟨0x00001010, 0, 0⟩ = .error .kindMisuse ∧
      NextUp (taking (inHandler (at0 idle8)) .interrupt) .interrupt [] ∧
      (taking (inHandler (at0 idle8)) .interrupt).ic = .active 0 .txDone [] := by decide

theorem witness_StepHaltsAfterFault :
    ({ State.reset with faults := [.configureDuringTransfer] } : State).faults = .configureDuringTransfer :: [] := rfl

/-- An entry with a transition, and one of each kind with none; a host's write always has one. -/
theorem witness_StepTakesAgendaEntry :
    let f : RxFrame := ⟨0x3FF, false, true⟩
    NextUp (taking (at0 sending) (.dispatch 0)) (.dispatch 0) [] ∧ (∃ t, Takes (at0 sending) (.dispatch 0) t) ∧
      ([.foreground, .interrupt, .dispatch 0, .dispatch 3, .txLoad 0, .txShiftDone 0, .rxFrame 3 f] : List Event).all
        (fun ev => decide (NextUp (taking (at0 idle8) ev) ev []) && (offer ev { taking (at0 idle8) ev with agenda := [] }).isNone) =
        true ∧
      NextUp (taking (inHandler State.reset) (.command ⟨2, 0, 0⟩)) (.command ⟨2, 0, 0⟩) [] ∧
      (offer (.command ⟨2, 0, 0⟩) (inHandler State.reset)).isNone = true :=
  ⟨by decide, ⟨_, rfl, rfl⟩, by decide, by decide, by decide⟩

theorem witness_EnabledStepsTakePlace :
    (at0 receiving).Inv ∧ (at0 receiving).faults = [] ∧ ∀ a < 2 ^ 32, Params.admits (at0 receiving).params a = true := by
  refine ⟨by decide, rfl, fun a ha => ?_⟩
  simpa [Params.admits, at0, State.reset, State.powerOn, Params.default] using ha

theorem witness_HandlerIsNotPreempted : (inHandler (at0 sending)).ic ≠ .none := by decide

theorem witness_FetchWordIsDelivered :
    decodeTableWord 32 0x00000141 = some (.getRxStatus 1) ∧
      decodeTableWord 96 (0x25800000000 * 2 ^ 32 + 3) = some (.setbaud 0 600) ∧ State.reset.ic = .none ∧
      (inHandler State.reset).ic = .active 0 .txDone [] := by decide

/-- The three ranges of the quotient, at their ends: below 1, exactly 1, just below 8192, exactly 8192. -/
theorem witness_CandidateRoundsDownAndClamps :
    (7999999 < 2000000 * 4) ∧ (2000000 * 4 ≤ 8000000 ∧ 8000000 < 8192 * (2000000 * 4)) ∧
      (1 * 4 ≤ 32767 ∧ 32767 < 8192 * (1 * 4)) ∧ 8192 * (1 * 4) ≤ 32768 ∧
      candidateD 7999999 2000000 4 = 1 ∧ candidateD 8000000 2000000 4 = 1 ∧ candidateD 32767 1 4 = 8191 ∧
      candidateD 32768 1 4 = 8191 := by decide

theorem witness_OverrideForcesRatioSixteen : (some 1 : Option Nat) = some 1 ∧ (some 1 : Option Nat) ≠ some 0 := by decide

/-- SBNS and the reserved bits 14, 31 are bits ProgramBaud must leave. -/
theorem witness_ProgramBaudWritesThreeFields :
    [13, 14, 23, 29, 31].all (fun k => decide (k < 32 ∧ 12 < k ∧ k ≠ 17 ∧ (k < 24 ∨ 28 < k))) = true := by decide

theorem witness_HostWriteChangesOneByte :
    let s := taking (at0 sending) (.hostWrite 0xFFFFFFFF 0)
    s.faults = [] ∧ Memory.wf s.mem := by decide

/-- Both widths of an access, admitted and refused; the last address has no successor. -/
theorem witness_CodecLoadReadsLittleEndian :
    let s := without4001 (at0 idle8)
    Params.admits s.params 0x4000 = true ∧ Params.admits s.params 0x4001 = false ∧
      (Params.admits s.params 0x2001 && Params.admits s.params 0x2002) = true ∧
      (Params.admits State.reset.params 0xFFFFFFFF && Params.admits State.reset.params 0x100000000) = false := by decide

theorem witness_CodecStoreWritesMaskedBytes :
    let s := without4001 (at0 idle8)
    Memory.wf s.mem ∧ Params.admits s.params 0x4001 = false ∧
      (Params.admits s.params 0x4000 && Params.admits s.params 0x4001) = false ∧ Params.admits s.params 0x4000 = true ∧
      Params.admits s.params 0x2001 = true ∧ Params.admits s.params 0x2002 = true := by decide

theorem witness_CodecStoreThenLoad :
    Memory.wf (at0 idle8).mem ∧ 0x1FF < 2 ^ 9 ∧ ∃ t, (at0 idle8).codecStore 0x4000 0x1FF 9 = some t :=
  ⟨by decide, by decide, _, rfl⟩

/-! ### Configuration, control and query commands -/

/-- FG idle: no blocking transfer. -/
theorem at0_not_blocking (u : InstState) (i : Nat) : ¬ SendsBlocking (at0 u) i ∧ ¬ ReceivesBlocking (at0 u) i :=
  ⟨fun ⟨_, _, _, _, _, h⟩ => (by cases h), fun ⟨_, _, _, _, h⟩ => (by cases h)⟩

theorem idle8_not_inFlight : ¬ SendActive (at0 idle8) 0 idle8 ∧ ¬ RecvActive (at0 idle8) 0 idle8 :=
  ⟨(fun h => h.elim (by decide) (at0_not_blocking _ _).1), fun h => h.elim (by decide) (at0_not_blocking _ _).2⟩

theorem witness_InitConfiguresInstance :
    (at0 idle8).inst[3]? = none ∧ (at0 idle8).inst[0]? = some idle8 ∧ (∀ c, ¬ Describes 0x80000021 0 c) ∧
      Describes 0x80000021 115200 cfg8 ∧ ¬ InFlight (at0 idle8) 0 idle8 ∧
      (at0 sending).inst[0]? = some sending ∧ InFlight (at0 sending) 0 sending ∧
      InFlight { at0 idle8 with fg := .recvBlk 0 1 1 8 0 } 0 idle8 :=
  ⟨by decide, by decide, fun c h => h.2.2.1 rfl, by decide, fun h => h.elim idle8_not_inFlight.1 idle8_not_inFlight.2,
    by decide, .inl (.inl rfl), .inr (.inr ⟨_, _, _, _, rfl⟩)⟩

theorem witness_DeinitResetsInstance :
    (at0 sending).inst[3]? = none ∧ (at0 sending).inst[0]? = some sending := by decide

theorem witness_SetbaudReprogramsDivisor :
    (at0 idle8).inst[3]? = none ∧ (at0 idle8).inst[1]? = some .reset ∧ InstState.reset.cfg = none ∧
      (at0 idle8).inst[0]? = some idle8 ∧ idle8.cfg = some cfg8 ∧ ¬ InFlight (at0 idle8) 0 idle8 ∧
      (at0 sending).inst[0]? = some sending ∧ sending.cfg = some cfg8 ∧ InFlight (at0 sending) 0 sending :=
  ⟨by decide, by decide, by decide, by decide, by decide, fun h => h.elim idle8_not_inFlight.1 idle8_not_inFlight.2,
    by decide, by decide, .inl (.inl rfl)⟩

theorem witness_EnablesWriteOneControlBit :
    (Instr.txEnable 0, Ctrl.te, true) ∈ [(Instr.txEnable 0, Ctrl.te, true), (Instr.txDisable 0, Ctrl.te, false),
        (Instr.rxEnable 0, Ctrl.re, true), (Instr.rxDisable 0, Ctrl.re, false)] ∧
      (at0 receiving).inst[3]? = none ∧ (at0 receiving).inst[1]? = some .reset ∧ InstState.reset.cfg = none ∧
      (at0 receiving).inst[0]? = some receiving ∧ receiving.cfg ≠ none := by decide

theorem witness_RegistrationWritesOneSlot :
    Instr.regErrCallback 0 0 ∈ [Instr.regCallback 0 .error 0, .regCallback 0 .txDone 0, .regCallback 0 .rxDone 0,
        .regErrCallback 0 0] ∧
      State.reset.inst[3]? = none ∧ State.reset.inst[2]? = some .reset := by decide

theorem witness_TxStatusQueryReports :
    (at0 idle8).inst[3]? = none ∧ (at0 idle8).inst[1]? = some .reset ∧ InstState.reset.cfg = none ∧
      (at0 sending).inst[0]? = some sending ∧ sending.cfg ≠ none ∧ sending.tx.busy = true ∧
      ([.uninitialized, .ready, .busy] : List TxStatus).all (fun st =>
        let u := { idle8 with tx := .empty st }
        decide ((at0 u).inst[0]? = some u) && decide (u.cfg ≠ none) && !u.tx.busy && decide (u.tx.status = st)) = true := by
  decide

theorem witness_RxStatusQueryReports :
    (at0 idle8).inst[3]? = none ∧ (at0 idle8).inst[1]? = some .reset ∧ InstState.reset.cfg = none ∧
      (at0 receiving).inst[0]? = some receiving ∧ receiving.cfg ≠ none ∧ receiving.rx.busy = true ∧
      ([.uninitialized, .ready, .busy, .error .overrun, .error .framing, .error .parity, .error .noise] : List RxStatus).all (fun st =>
        let u := { idle8 with rx := .empty st }
        decide ((at0 u).inst[0]? = some u) && decide (u.cfg ≠ none) && !u.rx.busy && decide (u.rx.status = st)) = true := by
  decide

/-! ### Transfer commands -/

/-- The configuration of `receiving`. -/
def cfg9 : UartConfig := { cfg8 with width := .w9 }

/-- The context check, and each later check with all earlier ones passed: the four ways a buffer is refused, and a transfer in
flight in either direction. -/
theorem witness_ArmChecksInOrder :
    (Instr.recvAsync 0 1 1, false, false) ∈ [(Instr.sendBlocking 0 1 1, true, true), (Instr.sendAsync 0 1 1, false, true),
        (Instr.recvBlocking 0 1 1, true, false), (Instr.recvAsync 0 1 1, false, false)] ∧
      (inHandler (at0 idle8)).ic ≠ .none ∧ (at0 receiving).ic = .none ∧ (at0 receiving).inst[3]? = none ∧
      (at0 receiving).inst[1]? = some .reset ∧ InstState.reset.cfg = none ∧
      (at0 receiving).inst[0]? = some receiving ∧ receiving.cfg = some cfg9 ∧ ¬ BufferOk cfg9 0 2 ∧ ¬ BufferOk cfg9 1 0 ∧
      ¬ BufferOk cfg9 1 1 ∧ ¬ BufferOk cfg9 0xFFFFFFFF 2 ∧ BufferOk cfg9 0xFFFFFFFE 2 := by decide

theorem witness_ArmChecksInOrder_busy :
    RecvActive (at0 receiving) 0 receiving ∧ SendActive { at0 receiving with fg := .sendBlk 0 1 1 8 0 .waitTc } 0 receiving :=
  ⟨.inl rfl, .inr ⟨_, _, _, _, _, rfl⟩⟩

theorem witness_SendBlockingEntersLoop :
    (at0 idle8).ic = .none ∧ (at0 idle8).inst[0]? = some idle8 ∧ idle8.cfg = some cfg8 ∧ BufferOk cfg8 1 0xFFFFFFFF ∧
      ¬ SendActive (at0 idle8) 0 idle8 := ⟨by decide, by decide, by decide, by decide, idle8_not_inFlight.1⟩

/-- From a handler, with a receive in flight. -/
theorem witness_SendAsyncArmsTransmit :
    (inHandler (at0 receiving)).inst[0]? = some receiving ∧ receiving.cfg = some cfg9 ∧ BufferOk cfg9 0xFFFFFFFE 2 ∧
      ¬ SendActive (inHandler (at0 receiving)) 0 receiving :=
  ⟨by decide, by decide, by decide, fun h => h.elim (by decide) (at0_not_blocking receiving 0).1⟩

/-- A receive that ended with an error, and one with none pending. -/
theorem witness_RecvBlockingEntersLoop :
    let u := { idle8 with rx := .empty (.error .noise) }
    (at0 u).ic = .none ∧ (at0 u).inst[0]? = some u ∧ u.cfg = some cfg8 ∧ BufferOk cfg8 0xFFFFFFFF 1 ∧
      ¬ RecvActive (at0 u) 0 u ∧ u.rx.status = .error .noise ∧
      (at0 idle8).inst[0]? = some idle8 ∧ idle8.rx.status = .ready ∧ ¬ RecvActive (at0 idle8) 0 idle8 :=
  ⟨by decide, by decide, by decide, by decide, fun h => h.elim (by decide) (at0_not_blocking _ 0).2, by decide, by decide,
    by decide, idle8_not_inFlight.2⟩

/-- With a send in flight. -/
theorem witness_RecvAsyncArmsReceive :
    (at0 sending).inst[0]? = some sending ∧ sending.cfg = some cfg8 ∧ BufferOk cfg8 1 1 ∧ ¬ RecvActive (at0 sending) 0 sending :=
  ⟨by decide, by decide, by decide, fun h => h.elim (by decide) (at0_not_blocking sending 0).2⟩

theorem witness_AbortSendClearsTransmit :
    let v := { sending with stat := 0x00800000, txShift := some ⟨0x41, 8, none, .one⟩ }
    (at0 sending).inst[3]? = none ∧ (at0 sending).inst[1]? = some .reset ∧ InstState.reset.cfg = none ∧
      (at0 sending).inst[0]? = some sending ∧ sending.cfg ≠ none ∧ sending.txShift = none ∧
      (at0 v).inst[0]? = some v ∧ v.cfg ≠ none ∧ v.txShift ≠ none := by decide

theorem witness_AbortRecvClearsReceive :
    (at0 receiving).inst[3]? = none ∧ (at0 receiving).inst[1]? = some .reset ∧ InstState.reset.cfg = none ∧
      (at0 receiving).inst[0]? = some receiving ∧ receiving.cfg ≠ none := by decide

/-! ### The blocking loops -/

/-- TDRE clear; TDRE set with the character refused; TDRE set with the character at the second byte of P1. -/
theorem witness_BlockingSendLoop_data :
    let s (u : InstState) (addr : Word) (e idx : Nat) :=
      without4001 (taking { at0 u with fg := .sendBlk 0 addr 2 e idx .waitTdre } .foreground)
    let u := { idle8 with stat := 0 }
    (s u 0x2000 8 1).faults = [] ∧ (s u 0x2000 8 1).ic = .none ∧ (s u 0x2000 8 1).inst[0]? = some u ∧
      bit u.stat Stat.tdre = false ∧ (s idle8 0x2000 8 1).inst[0]? = some idle8 ∧ bit idle8.stat Stat.tdre = true ∧
      (s idle8 0x4000 9 0).codecLoad (0x4000 + 0) 9 = none ∧ (s idle8 0x2000 8 1).codecLoad (0x2000 + 1) 8 = some 0x42 := by
  decide

theorem witness_BlockingSendLoop_done :
    let s (u : InstState) (idx : Nat) := taking { at0 u with fg := .sendBlk 0 0x2000 2 8 idx .waitTc } .foreground
    let u := { idle8 with stat := 0 }
    (s u 0).faults = [] ∧ (s u 0).ic = .none ∧ (s u 0).inst[0]? = some u ∧ bit u.stat Stat.tc = false ∧
      (s idle8 0).inst[0]? = some idle8 ∧ bit idle8.stat Stat.tc = true ∧ 0 + stride 8 ≠ (2 : Word).toNat ∧
      1 + stride 8 = (2 : Word).toNat := by decide

theorem witness_BlockingReceiveStoresCharacter :
    let s (u : InstState) (idx : Nat) :=
      without4001 (taking { at0 u with fg := .recvBlk 0 0x3FFE 4 9 idx } .foreground)
    let u := { idle8 with rdr := 0x1AB, stat := 0x00E00000 }
    (s u 0).faults = [] ∧ (s u 0).ic = .none ∧ (s u 0).inst[0]? = some u ∧ Memory.wf (s u 0).mem ∧
      (s idle8 0).inst[0]? = some idle8 ∧ bit idle8.stat Stat.rdrf = false ∧ bit u.stat Stat.rdrf = true ∧
      (s u 2).codecStore (0x3FFE + 2) 0x1AB 9 = none ∧ ((s u 0).codecStore (0x3FFE + 0) 0x1AB 9).isSome = true ∧
      0 + stride 9 ≠ (4 : Word).toNat ∧ 2 + stride 9 = (4 : Word).toNat := by decide

/-! ### The dispatcher and the line side -/

/-- Each of the six causes by itself, and no cause. -/
theorem witness_DispatchEnabledByCauseAndLine :
    ([(0x00200000, 0x00200000), (0x00800000, 0x00800000), (0x00080000, 0x08000000), (0x00040000, 0x04000000),
      (0x00020000, 0x02000000), (0x00010000, 0x01000000)] : List (Word × Word)).all (fun sc =>
        enabled (.dispatch 0) (at0 { receiving with stat := sc.1, ctrl := sc.2 })) = true ∧
      enabled (.dispatch 0) (at0 { receiving with stat := 0x00400000, ctrl := 0x0FFFFFFF }) = false ∧
      enabled (.dispatch 0) (inHandler (at0 sending)) = false ∧
      enabled (.dispatch 0) (at0 { sending with lineEn := false }) = false := by decide

/-- P2 with the first character waiting, and with the last one waiting after a parity error, a handler registered. -/
def rxFirst : InstState := { receiving with rdr := 0x1AB, stat := 0x00E00000 }
def rxLast : InstState := { rxFirst with rx := ⟨0x4000, 4, 2, true, .error .parity⟩, cb := ⟨0, 0, 0x55⟩ }

theorem witness_ReceiveServiceStoresCharacter_inv :
    (dispatching rxFirst).Inv ∧ (dispatching rxLast).Inv ∧ (without4001 (dispatching rxFirst)).Inv :=
  ⟨by decide, by decide, by decide⟩

/-- A character that is refused, one in the middle, the last one; a handler and none. -/
theorem witness_ReceiveServiceStoresCharacter :
    (dispatching rxFirst).faults = [] ∧ (dispatching rxFirst).ic = .none ∧
      (dispatching rxFirst).inst[0]? = some rxFirst ∧ rxFirst.lineEn = true ∧ bit rxFirst.stat Stat.rdrf = true ∧
      bit rxFirst.ctrl Ctrl.rie = true ∧ (without4001 (dispatching rxFirst)).codecStore (0x4000 + 0) 0x1AB 9 = none ∧
      ((dispatching rxFirst).codecStore (0x4000 + 0) 0x1AB 9).isSome = true ∧ (dispatching rxLast).inst[0]? = some rxLast ∧
      ((dispatching rxLast).codecStore (0x4000 + 2) 0x1AB 9).isSome = true ∧ rxLast.cb.rxDone ≠ 0 ∧
      rxFirst.cb.rxDone = 0 := by decide

/-- P1 with its last character to load and a handler registered; a send whose next byte is at 0x4001. -/
def txLast : InstState := { sending with tx := ⟨0x2000, 3, 2, true, .busy⟩, cb := ⟨0, 0x77, 0⟩ }
def txAt4001 : InstState := { sending with tx := ⟨0x4000, 3, 1, true, .busy⟩ }

theorem witness_TransmitServiceLoadsCharacter_inv :
    (dispatching sending).Inv ∧ (dispatching txLast).Inv ∧ (without4001 (dispatching txAt4001)).Inv :=
  ⟨by decide, by decide, by decide⟩

theorem witness_TransmitServiceLoadsCharacter :
    (dispatching sending).faults = [] ∧ (dispatching sending).ic = .none ∧
      (dispatching sending).inst[0]? = some sending ∧ sending.lineEn = true ∧ rxReady sending = false ∧
      bit sending.stat Stat.tdre = true ∧ bit sending.ctrl Ctrl.tie = true ∧
      (dispatching sending).codecLoad (0x2000 + 0) 8 = some 0x41 ∧ (dispatching txLast).inst[0]? = some txLast ∧
      (dispatching txLast).codecLoad (0x2000 + 2) 8 = some 0x43 ∧ txLast.cb.txDone ≠ 0 ∧ sending.cb.txDone = 0 ∧
      (without4001 (dispatching txAt4001)).codecLoad (0x4000 + 1) 8 = none := by decide

theorem witness_ErrorServiceReportsKind :
    let u := { receiving with stat := 0x00CF0000 }
    let v := { u with cb := ⟨0x99, 0, 0⟩ }
    (dispatching u).Inv ∧ (dispatching u).faults = [] ∧ (dispatching u).ic = .none ∧
      (dispatching u).inst[0]? = some u ∧ u.lineEn = true ∧ rxReady u = false ∧ txReady u = false ∧ errAny u = true ∧
      (dispatching v).Inv ∧ (dispatching v).inst[0]? = some v ∧ v.cb.err ≠ 0 ∧ u.cb.err = 0 := by decide

theorem witness_ClassifierFollowsPriority :
    Params.wf .default 1 ∧ Params.wf { Params.default with errPriority := [.noise, .parity, .framing, .overrun], osr16 := some 15 } 16 := by
  decide

theorem witness_TxLoadMakesFrame :
    let s (u : InstState) := taking (at0 u) (.txLoad 0)
    let u := { sending with stat := 0, tdr := 0x141 }
    let v := { u with txShift := some ⟨0x41, 8, none, .one⟩ }
    (s u).faults = [] ∧ (s u).inst[0]? = some u ∧ bit u.ctrl Ctrl.te = true ∧ bit u.stat Stat.tdre = false ∧
      u.txShift = none ∧ (s idle8).inst[0]? = some idle8 ∧ bit idle8.ctrl Ctrl.te = false ∧
      (s sending).inst[0]? = some sending ∧ bit sending.stat Stat.tdre = true ∧
      (s v).inst[0]? = some v ∧ v.txShift ≠ none := by decide

theorem witness_TxShiftDoneSendsFrame :
    let s (u : InstState) := taking (at0 u) (.txShiftDone 0)
    let u := { idle8 with stat := 0x00800000, txShift := some ⟨0x41, 8, none, .one⟩ }
    (s u).faults = [] ∧ (s u).inst[0]? = some u ∧ u.txShift = some ⟨0x41, 8, none, .one⟩ ∧
      (s idle8).inst[0]? = some idle8 ∧ idle8.txShift = none := by decide

theorem witness_RxFrameLatchesCharacter :
    let f : RxFrame := ⟨0x3FF, false, true⟩
    let s (u : InstState) := taking (at0 u) (.rxFrame 0 f)
    let full := { receiving with rdr := 0x041, stat := 0x00E00000 }
    (s receiving).faults = [] ∧ (s receiving).inst[0]? = some receiving ∧ bit receiving.ctrl Ctrl.re = true ∧
      bit receiving.stat Stat.rdrf = false ∧ (s full).inst[0]? = some full ∧ bit full.ctrl Ctrl.re = true ∧
      bit full.stat Stat.rdrf = true ∧ (s idle8).inst[0]? = some idle8 ∧ bit idle8.ctrl Ctrl.re = false := by decide

theorem witness_ParityBitMakesCountEvenOrOdd : 0 < 2 ^ 32 ∧ 0xFFFFFFFF < 2 ^ 32 := by decide

/-! ### Reset and whole-machine rules -/

theorem witness_PowerOnHasInvariant :
    (1 ≤ 1 ∧ 1 ≤ 16 ∧ Params.wf .default 1 ∧ Memory.wf []) ∧
      (1 ≤ 16 ∧ 16 ≤ 16 ∧ Params.wf { Params.default with osr16 := some 15 } 16 ∧ Memory.wf [(0xFFFFFFFF, 1)]) := by decide

theorem witness_PowerOnValues : (State.powerOn 16 .default []).inst[15]? = some .reset := by decide

/-- A state with both directions in flight, a blocking loop on another instance and a step that completes. -/
theorem witness_EveryStepKeepsInvariant :
    let u := { receiving with rdr := 0x1AB, stat := 0x00E80000, rx := ⟨0x4000, 4, 2, true, .busy⟩ }
    let s := { dispatching u with
      inst := [u, idle8, .reset], fg := .sendBlk 1 0x2000 3 8 1 .waitTdre,
      params := { Params.default with osr16 := some 2 } }
    s.Inv ∧ ∃ t, step s = .next t := ⟨by decide, _, rfl⟩

theorem witness_InvariantIsNeverFoundBroken :
    (dispatching { sending with tx := ⟨0x2000, 3, 2, true, .busy⟩ }).Inv ∧
      ∃ t, step (dispatching { sending with tx := ⟨0x2000, 3, 2, true, .busy⟩ }) = .next t := ⟨by decide, _, rfl⟩

theorem witness_LogsOnlyGrow :
    ∃ t, step (dispatching { sending with tx := ⟨0x2000, 3, 2, true, .busy⟩ }) = .next t ∧
      t.trace = [.callback 0 .txDone 0] := ⟨_, rfl, rfl⟩

theorem witness_CommandTouchesItsInstanceAlone :
    ∃ t, exec (.sendAsync 0 0x2000 3) (at0 idle8) = .next t ∧ t.inst[0]? = some sending ∧ 1 ≠ (Instr.sendAsync 0 0x2000 3).inst ∧
      (Instr.sendAsync 0 0x2000 3).op ≠ .sendBlocking ∧ (Instr.sendAsync 0 0x2000 3).op ≠ .recvBlocking :=
  ⟨_, rfl, by decide, by decide, by decide, by decide⟩

/-- SEND_ASYNC is outside every list but those of the line enable, the transmit buffer, TE and TIE; ABORT_RECV is outside those. -/
theorem witness_OnlyListedCommandsWrite :
    (∃ t, exec (.sendAsync 0 0x2000 3) (at0 idle8) = .next t ∧ t.inst[0]? = some sending) ∧
      (at0 idle8).inst[0]? = some idle8 ∧
      (Instr.sendAsync 0 0x2000 3).op ∉ ([.init, .deinit, .recvAsync, .recvBlocking, .abortRecv] : List Op) ∧
      (Instr.abortRecv 0).op ∉ ([.init, .deinit, .sendAsync, .abortSend] : List Op) ∧
      (Instr.abortRecv 0).op ∉ ([.sendAsync, .recvAsync, .deinit] : List Op) ∧
      (Instr.sendAsync 0 0x2000 3).op ∉
        ([.init, .deinit, .rxEnable, .rxDisable, .recvBlocking, .recvAsync, .abortRecv] : List Op) ∧
      (Instr.abortRecv 0).op ∉ ([.init, .deinit, .txEnable, .txDisable, .sendBlocking, .sendAsync, .abortSend] : List Op) := by
  refine ⟨⟨_, rfl, ?_⟩, ?_⟩ <;> decide

theorem witness_EventsKeepConfiguration :
    ∃ t, offer (.dispatch 0) (at0 sending) = some (.next t) ∧ (at0 sending).inst[0]? = some sending ∧
      (t.inst[0]?).isSome = true ∧ (∀ p, Event.dispatch 0 ≠ .command p) ∧ Event.dispatch 0 ≠ .interrupt :=
  ⟨_, rfl, by decide, by decide, by simp, by decide⟩

theorem witness_ResultPacketsAreWellFormed :
    ∃ t, step (taking State.reset (.command ⟨0x00000F02, 0, 0⟩)) = .next t ∧
      TraceEvent.result .fg 0x00000F02 ⟨2, 0⟩ ∈ t.trace ∧
      TraceEvent.result .fg 0x00000F02 ⟨2, 0⟩ ∉ (taking State.reset (.command ⟨0x00000F02, 0, 0⟩)).trace ∧
      ∃ v, step (taking State.reset (.command ⟨0x00000F40, 0, 0⟩)) = .next v ∧
        TraceEvent.result .fg 0x00000F40 ⟨2, 0⟩ ∈ v.trace :=
  ⟨_, rfl, by decide, by decide, _, rfl, by decide⟩

/-- An instance with a frame in the shift register and nothing else going on. -/
def shifting : InstState := { idle8 with stat := 0x00800000, txShift := some ⟨0x41, 8, none, .one⟩ }

/-- The three outcomes: another step, TX_SHIFT_DONE, DEINIT. -/
theorem witness_ShiftingFrameIsNotLost :
    (at0 shifting).inst[0]? = some shifting ∧ shifting.txShift = some ⟨0x41, 8, none, .one⟩ ∧
      (∃ t v, Takes (at0 shifting) (.command ⟨0x14, 0, 0⟩) t ∧ t.inst[0]? = some v ∧ v.txShift = shifting.txShift) ∧
      (∃ t v, Takes (at0 shifting) (.txShiftDone 0) t ∧ t.inst[0]? = some v ∧ v.txShift = none) ∧
      (∃ t v, Takes (at0 shifting) (.command ⟨2, 0, 0⟩) t ∧ t.inst[0]? = some v ∧ v = .reset) :=
  ⟨by decide, rfl, ⟨_, _, ⟨rfl, rfl⟩, rfl, rfl⟩, ⟨_, _, ⟨rfl, rfl⟩, rfl, rfl⟩, ⟨_, _, ⟨rfl, rfl⟩, rfl, rfl⟩⟩

/-- A run whose first step leads to `t`, after which the host writes the byte 0 at address 0 for ever. -/
def quietRun (t : State) : Nat → State
  | 0 => at0 shifting
  | _ + 1 => t

/-- The steps of that run. -/
def quietSteps (ev : Event) : Nat → Event
  | 0 => ev
  | _ + 1 => .hostWrite 0 0

/-- Such a run meets the premises where its first step empties the shift register. -/
theorem quietRun_meets_premises (ev : Event) (t : State) (first : Takes (at0 shifting) ev t)
    (quiet : Takes t (.hostWrite 0 0) t) (empty : (offer (.txShiftDone 0) t).isSome = false) :
    IsRun (quietRun t) (quietSteps ev) ∧ WeaklyFair (quietRun t) (quietSteps ev) (.txShiftDone 0) ∧
      (quietRun t 0).inst[0]? = some shifting := by
  refine ⟨fun n => ?_, fun n h => ?_, rfl⟩
  · cases n with
    | zero => exact first
    | succ n => exact quiet
  · have stays : (offer (.txShiftDone 0) t).isSome = true := h (n + 1) (Nat.le_succ n)
    rw [empty] at stays
    cases stays

/-- One run in which the frame is sent, and one in which DEINIT drops it. -/
theorem witness_FairLineFinishesFrame :
    shifting.txShift = some ⟨0x41, 8, none, .one⟩ ∧
      (∃ t, IsRun (quietRun t) (quietSteps (.txShiftDone 0)) ∧
        WeaklyFair (quietRun t) (quietSteps (.txShiftDone 0)) (.txShiftDone 0) ∧
        (quietRun t 0).inst[0]? = some shifting) ∧
      (∃ t, IsRun (quietRun t) (quietSteps (.command ⟨2, 0, 0⟩)) ∧
        WeaklyFair (quietRun t) (quietSteps (.command ⟨2, 0, 0⟩)) (.txShiftDone 0) ∧
        (quietRun t 0).inst[0]? = some shifting) :=
  ⟨rfl, ⟨_, quietRun_meets_premises _ _ ⟨rfl, rfl⟩ ⟨rfl, rfl⟩ rfl⟩,
    ⟨_, quietRun_meets_premises _ _ ⟨rfl, rfl⟩ ⟨rfl, rfl⟩ rfl⟩⟩

end Sys2Proof.Tests
end

/-! PROOFS of 00_scope.md: the order in which the agenda's entries are taken. -/

namespace Sys2Proof.Machine

/-- Delivering a packet always answers a next state, whether it decodes or not (30_encoding.md R119). -/
theorem runPacket_answers_next (p : Packet) (s : State) : ∃ t, runPacket p s = .next t := by
  unfold runPacket
  split
  · exact ⟨_, rfl⟩
  · exact exec_answers_next _ s

/-- A handler's step, where there is one, answers a next state. -/
theorem interruptStep_answers_next {s : State} {r : Result} (h : interruptStep s = some r) : ∃ t, r = .next t := by
  unfold interruptStep at h
  split at h
  · cases h
  · cases h
    exact runPacket_answers_next _ _
  · cases h
    exact ⟨_, rfl⟩

/-- Every transition on offer answers a next state; no event offers a fault or a refusal. -/
theorem offer_answers_next {ev : Event} {s : State} {r : Result} (h : offer ev s = some r) : ∃ t, r = .next t := by
  cases ev with
  | command p =>
    obtain ⟨-, rfl⟩ : commandEnabled s = true ∧ runPacket p s = r := by simpa [offer] using h
    exact runPacket_answers_next p s
  | interrupt => exact interruptStep_answers_next h
  | hostWrite a v =>
    cases h
    exact ⟨_, rfl⟩
  | foreground | dispatch i | txLoad i | txShiftDone i | rxFrame i f =>
    obtain ⟨t, -, rfl⟩ := Option.map_eq_some_iff.mp h
    exact ⟨t, rfl⟩

/-- With no fault recorded and an entry next on the agenda, a step takes that entry. -/
theorem step_of_nextUp {s : State} {ev : Event} {rest : List Event} (h : NextUp s ev rest) :
    step s = advance ev rest s := by
  obtain ⟨hfaults, hagenda⟩ := h
  simp only [step, hfaults, hagenda]

/-- An entry with a transition, with the agenda moved on, is taken by it. -/
theorem advance_of_offer_some {ev : Event} {rest : List Event} {s : State} {r : Result}
    (h : offer ev { s with agenda := rest } = some r) : advance ev rest s = r := by
  simp only [advance, h]

/-- An entry with no transition lapses. -/
theorem advance_of_offer_none {ev : Event} {rest : List Event} {s : State}
    (h : offer ev { s with agenda := rest } = none) : advance ev rest s = .next { s with agenda := rest } := by
  simp only [advance, h]

/-- With no fault recorded, an event that takes the state nowhere offers no transition: any it offered would answer a next
state. -/
theorem offer_eq_none_of_not_takes {s : State} {ev : Event} (hfaults : s.faults = []) (h : ∀ t, ¬ Takes s ev t) :
    offer ev s = none := by
  cases hoffer : offer ev s with
  | none => rfl
  | some r =>
    obtain ⟨t, rfl⟩ := offer_answers_next hoffer
    exact absurd ⟨hfaults, hoffer⟩ (h t)

/-- Settles O11: the step is `advance`, and an entry offers either a next state or nothing. -/
theorem stepTakesAgendaEntry : Obligations.StepTakesAgendaEntry := by
  intro s ev rest hnext
  rw [step_of_nextUp hnext]
  constructor
  · rintro t ⟨-, hoffer⟩
    exact advance_of_offer_some hoffer
  · intro hstuck
    exact advance_of_offer_none (offer_eq_none_of_not_takes hnext.1 hstuck)

end Sys2Proof.Machine

/-! PROOFS of 10_state.md, the inversion layer: what a command, a step of an agent and an event of the agenda can do, each said
once. -/

namespace Sys2Proof.Machine

/-! ## Commands -/

/-- What an accepted command makes of its instance and of FG's loop `g`, with the checks it has passed (42_configuration_ops.md
R182 to R191, 43_transfer_ops.md R220 to R228). The status queries write nothing. -/
inductive CommandWrites (p : Params) (g : FgState) : Instr → InstState → InstState → FgState → Prop
  | init {i : Nat} {config baud : Word} {u : InstState} {c : UartConfig} (hconfig : decodeConfig config baud = some c)
      (hflight : (u.tx.busy || u.rx.busy || g.sendsOn i || g.receivesOn i) = false) :
      CommandWrites p g (.init i config baud) u (configured p i c u) g
  | deinit {i : Nat} {u : InstState} : CommandWrites p g (.deinit i) u (deinitialized u) g
  | setbaud {i : Nat} {baud : Word} {u : InstState} {c : UartConfig} (hcfg : u.cfg = some c) (hbaud : baud ≠ 0)
      (hflight : (u.tx.busy || u.rx.busy || g.sendsOn i || g.receivesOn i) = false) :
      CommandWrites p g (.setbaud i baud) u (rebauded p i c baud u) g
  | txEnable {i : Nat} {u : InstState} {c : UartConfig} (hcfg : u.cfg = some c) :
      CommandWrites p g (.txEnable i) u (setCtrl u Ctrl.te true) g
  | txDisable {i : Nat} {u : InstState} {c : UartConfig} (hcfg : u.cfg = some c) :
      CommandWrites p g (.txDisable i) u (setCtrl u Ctrl.te false) g
  | rxEnable {i : Nat} {u : InstState} {c : UartConfig} (hcfg : u.cfg = some c) :
      CommandWrites p g (.rxEnable i) u (setCtrl u Ctrl.re true) g
  | rxDisable {i : Nat} {u : InstState} {c : UartConfig} (hcfg : u.cfg = some c) :
      CommandWrites p g (.rxDisable i) u (setCtrl u Ctrl.re false) g
  | regCallback {i : Nat} {kind : SlotKind} {handle : Word} {u : InstState} :
      CommandWrites p g (.regCallback i kind handle) u { u with cb := u.cb.put kind handle } g
  | regErrCallback {i : Nat} {handle : Word} {u : InstState} :
      CommandWrites p g (.regErrCallback i handle) u { u with cb := u.cb.put .error handle } g
  | sendBlocking {i : Nat} {addr len : Word} {u : InstState} {c : UartConfig} (hcfg : u.cfg = some c)
      (hbuf : BufferOk c addr len) (hidle : (u.tx.busy || g.sendsOn i) = false) :
      CommandWrites p g (.sendBlocking i addr len) u (setCtrl u Ctrl.te true) (.sendBlk i addr len (effw c) 0 .waitTdre)
  | sendAsync {i : Nat} {addr len : Word} {u : InstState} {c : UartConfig} (hcfg : u.cfg = some c)
      (hbuf : BufferOk c addr len) (hidle : (u.tx.busy || g.sendsOn i) = false) :
      CommandWrites p g (.sendAsync i addr len) u (armedTx addr len u) g
  | recvBlocking {i : Nat} {addr len : Word} {u : InstState} {c : UartConfig} (hcfg : u.cfg = some c)
      (hbuf : BufferOk c addr len) (hidle : (u.rx.busy || g.receivesOn i) = false) :
      CommandWrites p g (.recvBlocking i addr len) u
        { setCtrl u Ctrl.re true with rx := { u.rx with status := u.rx.status.cleared } } (.recvBlk i addr len (effw c) 0)
  | recvAsync {i : Nat} {addr len : Word} {u : InstState} {c : UartConfig} (hcfg : u.cfg = some c)
      (hbuf : BufferOk c addr len) (hidle : (u.rx.busy || g.receivesOn i) = false) :
      CommandWrites p g (.recvAsync i addr len) u (armedRx addr len u) g
  | abortSend {i : Nat} {u : InstState} {c : UartConfig} (hcfg : u.cfg = some c) :
      CommandWrites p g (.abortSend i) u (abortedTx u) g
  | abortRecv {i : Nat} {u : InstState} {c : UartConfig} (hcfg : u.cfg = some c) :
      CommandWrites p g (.abortRecv i) u (abortedRx u) g

/-- The outcome of a command: only the logs grow (a rejection, a fault, a status query), or its instance is written. -/
inductive CommandOutcome (c : Instr) (s : State) : State → Prop
  | logs (l : List TraceEvent) (fs : List FaultName) :
      CommandOutcome c s { s with trace := s.trace ++ l, faults := s.faults ++ fs }
  | writes {u v : InstState} {g : FgState} (hu : s.inst[c.inst]? = some u) (hw : CommandWrites s.params s.fg c u v g)
      (l : List TraceEvent) : CommandOutcome c s { s with inst := s.inst.set c.inst v, fg := g, trace := s.trace ++ l }

namespace CommandOutcome
variable {c : Instr} {s t : State}

/-- A finished command whose instance is not written. -/
theorem finishWith (w0 : Word) (p : ResultPacket) : CommandOutcome c s (s.finishWith w0 p) := by
  simpa [State.finishWith] using logs (c := c) (s := s) [.result s.ctx w0 p] []

/-- A command that records a fault. -/
theorem raiseFault (n : FaultName) : CommandOutcome c s (s.raiseFault n) := by
  simpa [State.raiseFault] using logs (c := c) (s := s) [] [n]

/-- A finished command that writes its instance. -/
theorem finished {u v : InstState} (hu : s.inst[c.inst]? = some u) (hw : CommandWrites s.params s.fg c u v s.fg) {w0 : Word}
    {code : ResultCode} (h : Host.Outcome.next ((s.setInst c.inst v).finish w0 code) = (.next t : Result)) :
    CommandOutcome c s t := by
  cases h
  exact writes hu hw _

/-- An accepted blocking command: FG's loop starts and nothing is logged. -/
theorem entered {u v : InstState} {g : FgState} (hu : s.inst[c.inst]? = some u) (hw : CommandWrites s.params s.fg c u v g)
    (h : Host.Outcome.next { s.setInst c.inst v with fg := g } = (.next t : Result)) : CommandOutcome c s t := by
  cases h
  simpa using writes hu hw []

/-- Through the instance check. -/
theorem of_withInst {w0 : Word} {i : Nat} {rest : InstState → Result} (h : s.withInst w0 i rest = .next t)
    (hrest : ∀ u, s.inst[i]? = some u → rest u = .next t → CommandOutcome c s t) : CommandOutcome c s t := by
  rcases State.withInst_next h with ⟨-, rfl⟩ | ⟨u, hu, h⟩
  · exact finishWith _ _
  · exact hrest u hu h

/-- Through the instance and initialization checks. -/
theorem of_withReady {w0 : Word} {i : Nat} {rest : InstState → UartConfig → Result} (h : s.withReady w0 i rest = .next t)
    (hrest : ∀ u d, s.inst[i]? = some u → u.cfg = some d → rest u d = .next t → CommandOutcome c s t) :
    CommandOutcome c s t := by
  rcases State.withReady_next h with ⟨_, rfl⟩ | ⟨u, d, hu, hd, h⟩
  · exact finishWith _ _
  · exact hrest u d hu hd h

/-- Through the acceptance checks. -/
theorem of_withArm {w0 : Word} {i : Nat} {blocking : Bool} {active : State → Nat → InstState → Bool} {addr len : Word}
    {rest : InstState → UartConfig → Result} (h : s.withArm w0 i blocking active addr len rest = .next t)
    (hrest : ∀ u d, s.inst[i]? = some u → u.cfg = some d → BufferOk d addr len → active s i u = false →
      rest u d = .next t → CommandOutcome c s t) : CommandOutcome c s t := by
  rcases State.withArm_next h with ⟨-, -, rfl⟩ | ⟨_, rfl⟩ | ⟨u, d, hu, hd, -, haddr, hlen, hwhole, hwrap, hactive, h⟩
  · exact raiseFault _
  · exact finishWith _ _
  · exact hrest u d hu hd ⟨haddr, hlen, hwhole, hwrap⟩ hactive h

end CommandOutcome

/-- INIT: a rejected word, a transfer in flight, or the instance is configured (R182). -/
theorem execInit_outcome {i : Nat} {config baud : Word} {s t : State} (h : exec (.init i config baud) s = .next t) :
    CommandOutcome (.init i config baud) s t := by
  refine .of_withInst h fun u hu h => ?_
  split at h
  · cases h
    exact .finishWith _ _
  · split at h
    · cases h
      exact .raiseFault _
    · exact .finished hu (.init ‹_› (Bool.not_eq_true _ ▸ ‹¬ _›)) h

/-- SETBAUD: a zero rate, a transfer in flight, or the divisor is programmed (R185). -/
theorem execSetbaud_outcome {i : Nat} {baud : Word} {s t : State} (h : exec (.setbaud i baud) s = .next t) :
    CommandOutcome (.setbaud i baud) s t := by
  refine .of_withReady h fun u c hu hc h => ?_
  split at h
  · cases h
    exact .finishWith _ _
  · split at h
    · cases h
      exact .raiseFault _
    · exact .finished hu (.setbaud hc ‹_› (Bool.not_eq_true _ ▸ ‹¬ _›)) h

/-- What a command can do. -/
theorem exec_outcome {c : Instr} {s t : State} (h : exec c s = .next t) : CommandOutcome c s t := by
  cases c with
  | init i config baud => exact execInit_outcome h
  | setbaud i baud => exact execSetbaud_outcome h
  | deinit i => exact .of_withInst h fun u hu h => .finished hu .deinit h
  | sendBlocking i addr len => exact .of_withArm h fun u d hu hd hbuf hidle h => .entered hu (.sendBlocking hd hbuf hidle) h
  | sendAsync i addr len =>
    exact .of_withArm (blocking := false) (active := State.txActive) h fun u d hu hd hbuf hidle h =>
      .finished hu (.sendAsync hd hbuf hidle) h
  | recvBlocking i addr len => exact .of_withArm h fun u d hu hd hbuf hidle h => .entered hu (.recvBlocking hd hbuf hidle) h
  | recvAsync i addr len =>
    exact .of_withArm (blocking := false) (active := State.rxActive) h fun u d hu hd hbuf hidle h =>
      .finished hu (.recvAsync hd hbuf hidle) h
  | abortSend i => exact .of_withReady h fun u d hu hd h => .finished hu (.abortSend hd) h
  | abortRecv i => exact .of_withReady h fun u d hu hd h => .finished hu (.abortRecv hd) h
  | txEnable i => exact .of_withReady h fun u d hu hd h => .finished hu (.txEnable hd) h
  | txDisable i => exact .of_withReady h fun u d hu hd h => .finished hu (.txDisable hd) h
  | rxEnable i => exact .of_withReady h fun u d hu hd h => .finished hu (.rxEnable hd) h
  | rxDisable i => exact .of_withReady h fun u d hu hd h => .finished hu (.rxDisable hd) h
  | regCallback i kind handle => exact .of_withInst h fun u hu h => .finished hu .regCallback h
  | regErrCallback i handle => exact .of_withInst h fun u hu h => .finished hu .regErrCallback h
  | getTxStatus i | getRxStatus i =>
    refine .of_withInst h fun u hu h => ?_
    cases h
    exact .finishWith _ _

/-! ## FG's loop, the dispatcher and the line side -/

/-- What a step of FG's loop makes of the instance `i` of the loop and of the loop (43_transfer_ops.md R222, R225). -/
inductive LoopWrites (i : Nat) : FgState → InstState → InstState → FgState → Prop
  | sendData {addr len : Word} {e idx v : Nat} {u : InstState} :
      LoopWrites i (.sendBlk i addr len e idx .waitTdre) u (dataWrite u v) (.sendBlk i addr len e idx .waitTc)
  | sendNext {addr len : Word} {e idx : Nat} {u : InstState} (hmore : idx + stride e ≠ len.toNat) :
      LoopWrites i (.sendBlk i addr len e idx .waitTc) u u (.sendBlk i addr len e (idx + stride e) .waitTdre)
  | sendEnd {addr len : Word} {e idx : Nat} {u : InstState} :
      LoopWrites i (.sendBlk i addr len e idx .waitTc) u (setCtrl u Ctrl.te false) .idle
  | recvNext {addr len : Word} {e idx : Nat} {u : InstState} (hmore : idx + stride e ≠ len.toNat) :
      LoopWrites i (.recvBlk i addr len e idx) u (dataRead u) (.recvBlk i addr len e (idx + stride e))
  | recvEnd {addr len : Word} {e idx : Nat} {u : InstState} :
      LoopWrites i (.recvBlk i addr len e idx) u (setCtrl (dataRead u) Ctrl.re false) .idle

/-- What a step of FG's loop can do. -/
inductive LoopOutcome (s : State) : State → Prop
  | writes {i : Nat} {u v : InstState} {g : FgState} (hu : s.inst[i]? = some u) (hw : LoopWrites i s.fg u v g)
      {m : List Host.Cell} (hm : Memory.wf s.mem → Memory.wf m) (l : List TraceEvent) :
      LoopOutcome s { s with inst := s.inst.set i v, fg := g, mem := m, trace := s.trace ++ l }

/-- Writing an instance as it stands changes nothing. -/
theorem list_set_same {α : Type} {l : List α} {i : Nat} {u : α} (h : l[i]? = some u) : l.set i u = l := by
  obtain ⟨hi, rfl⟩ := List.getElem?_eq_some_iff.mp h
  exact List.set_getElem_self hi

/-- SendBlkData: a character goes to the data register (R222). -/
theorem sendBlkData_outcome {i : Nat} {addr len : Word} {e idx : Nat} {u : InstState} {s t : State}
    (hfg : s.fg = .sendBlk i addr len e idx .waitTdre) (hu : s.inst[i]? = some u)
    (h : sendBlkData i addr len e idx u s = some t) : LoopOutcome s t := by
  obtain ⟨v, -, rfl⟩ := Option.map_eq_some_iff.mp h
  simpa [State.setInst] using LoopOutcome.writes hu (hfg ▸ .sendData (v := v)) id []

/-- SendBlkDone: the next character, or the end of the command (R222). -/
theorem sendBlkDone_outcome {i : Nat} {addr len : Word} {e idx : Nat} {u : InstState} {s : State}
    (hfg : s.fg = .sendBlk i addr len e idx .waitTc) (hu : s.inst[i]? = some u) :
    LoopOutcome s (sendBlkDone i addr len e idx u s) := by
  unfold sendBlkDone
  split
  · exact .writes hu (hfg ▸ .sendEnd) id _
  · have hout : LoopOutcome s _ := .writes hu (hfg ▸ LoopWrites.sendNext (u := u) ‹_›) id []
    rw [list_set_same hu, List.append_nil] at hout
    exact hout

/-- RecvBlkData: a character is stored, and the loop goes on or the command ends (R225). -/
theorem recvBlkData_outcome {i : Nat} {addr len : Word} {e idx : Nat} {u : InstState} {s t : State}
    (hfg : s.fg = .recvBlk i addr len e idx) (hu : s.inst[i]? = some u) (h : recvBlkData i addr len e idx u s = some t) :
    LoopOutcome s t := by
  obtain ⟨r, hstore, rfl⟩ := Option.map_eq_some_iff.mp h
  have hwf := State.codecStore_wf hstore
  obtain ⟨m, rfl⟩ := State.codecStore_next hstore
  split
  · exact .writes hu (hfg ▸ .recvEnd) hwf _
  · simpa [State.setInst] using LoopOutcome.writes hu (hfg ▸ .recvNext ‹_›) hwf []

/-- What a step of FG can do. -/
theorem foregroundStep_outcome {s t : State} (h : foregroundStep s = some t) : LoopOutcome s t := by
  unfold foregroundStep at h
  split at h
  · split at h
    case h_1 => cases h
    case h_2 hfg =>
      obtain ⟨u, hu, h⟩ := Option.bind_eq_some_iff.mp h
      exact sendBlkData_outcome hfg hu h
    case h_3 hfg =>
      obtain ⟨u, hu, rfl⟩ := Option.map_eq_some_iff.mp h
      exact sendBlkDone_outcome hfg hu
    case h_4 hfg =>
      obtain ⟨u, hu, h⟩ := Option.bind_eq_some_iff.mp h
      exact recvBlkData_outcome hfg hu h
  · cases h

/-- What a service of the dispatcher makes of its instance (44_interrupt_dispatcher.md R263 to R265). -/
inductive ServiceWrites : InstState → InstState → Prop
  | rxServed {u : InstState} {c : UartConfig} (hready : rxReady u = true) (hcfg : u.cfg = some c)
      (hmore : u.rx.progress.toNat + stride (effw c) < u.rx.len.toNat) : ServiceWrites u (rxServed (effw c) u)
  | rxCompleted {u : InstState} {c : UartConfig} (hready : rxReady u = true) (hcfg : u.cfg = some c)
      (hlast : u.rx.progress.toNat + stride (effw c) = u.rx.len.toNat) :
      ServiceWrites u (rxCompleted (rxServed (effw c) u))
  | txServed {u : InstState} {c : UartConfig} {v : Nat} (hready : txReady u = true) (hcfg : u.cfg = some c)
      (hmore : u.tx.progress.toNat + stride (effw c) < u.tx.len.toNat) : ServiceWrites u (txServed (effw c) v u)
  | txCompleted {u : InstState} {c : UartConfig} {v : Nat} (hready : txReady u = true) (hcfg : u.cfg = some c)
      (hlast : u.tx.progress.toNat + stride (effw c) = u.tx.len.toNat) :
      ServiceWrites u (txCompleted (txServed (effw c) v u))
  | errServed {u : InstState} {k : ErrKind} : ServiceWrites u (errServed k u)

/-- What DISPATCH(i) can do: find the invariant broken, or write the instance and perhaps start a handler of it. -/
inductive ServiceOutcome (i : Nat) (s : State) : State → Prop
  | broken : ServiceOutcome i s (s.raiseFault .invariantBroken)
  | writes {u v : InstState} (hu : s.inst[i]? = some u) (hw : ServiceWrites u v) {ic : IcState}
      (hic : ic = s.ic ∨ ∃ ev pending, ic = .active i ev pending) {m : List Host.Cell}
      (hm : Memory.wf s.mem → Memory.wf m) (l : List TraceEvent) :
      ServiceOutcome i s { s with inst := s.inst.set i v, ic := ic, mem := m, trace := s.trace ++ l }

/-- A firing keeps the running handler or starts one of its instance (44_interrupt_dispatcher.md R267). -/
theorem fire_ic_cases (s : State) (i : Nat) (h : Word) (ev : CallbackEvent) :
    (s.fire i h ev).ic = s.ic ∨ ∃ ev' pending, (s.fire i h ev).ic = .active i ev' pending := by
  rw [State.fire_ic]
  split
  · exact .inl rfl
  · exact .inr ⟨_, _, rfl⟩

/-- A service that completes or reports: the instance is written and the callback fired. -/
theorem ServiceOutcome.fired {i : Nat} {s : State} {u v : InstState} (hu : s.inst[i]? = some u) (hw : ServiceWrites u v)
    {m : List Host.Cell} (hm : Memory.wf s.mem → Memory.wf m) (h : Word) (ev : CallbackEvent) :
    ServiceOutcome i s ((State.setInst { s with mem := m } i v).fire i h ev) :=
  .writes hu hw (fire_ic_cases (State.setInst { s with mem := m } i v) i h ev) hm _

/-- A service that only writes the instance. -/
theorem ServiceOutcome.served {i : Nat} {s : State} {u v : InstState} (hu : s.inst[i]? = some u) (hw : ServiceWrites u v)
    {m : List Host.Cell} (hm : Memory.wf s.mem → Memory.wf m) :
    ServiceOutcome i s (State.setInst { s with mem := m } i v) := by
  simpa [State.setInst] using ServiceOutcome.writes hu hw (.inl rfl) hm []

/-- The receive-ready service (R263). -/
theorem rxService_outcome {i : Nat} {u : InstState} {s t : State} (hu : s.inst[i]? = some u) (hready : rxReady u = true)
    (h : rxService i u s = some t) : ServiceOutcome i s t := by
  unfold rxService at h
  split at h
  · cases h
    exact .broken
  · next c hcfg =>
    dsimp only at h
    split at h
    · cases h
      exact .broken
    · obtain ⟨r, hstore, rfl⟩ := Option.map_eq_some_iff.mp h
      have hwf := State.codecStore_wf hstore
      obtain ⟨m, rfl⟩ := State.codecStore_next hstore
      split
      · exact .fired hu (.rxCompleted hready hcfg ‹_›) hwf _ _
      · exact .served hu (.rxServed hready hcfg (by omega)) hwf

/-- The transmit-ready service (R264). -/
theorem txService_outcome {i : Nat} {u : InstState} {s t : State} (hu : s.inst[i]? = some u) (hready : txReady u = true)
    (h : txService i u s = some t) : ServiceOutcome i s t := by
  unfold txService at h
  split at h
  · cases h
    exact .broken
  · next c hcfg =>
    dsimp only at h
    split at h
    · cases h
      exact .broken
    · obtain ⟨v, -, rfl⟩ := Option.map_eq_some_iff.mp h
      split
      · exact .fired hu (.txCompleted hready hcfg ‹_›) id _ _
      · exact .served hu (.txServed hready hcfg (by omega)) id

/-- The error service (R265). -/
theorem errService_outcome {i : Nat} {u : InstState} {s : State} (hu : s.inst[i]? = some u) :
    ServiceOutcome i s (errService i u s) := by
  unfold errService
  split
  · exact .broken
  · exact .fired hu .errServed id _ _

/-- What DISPATCH(i) can do. -/
theorem dispatchStep_outcome {i : Nat} {s t : State} (h : dispatchStep i s = some t) : ServiceOutcome i s t := by
  unfold dispatchStep at h
  split at h
  · obtain ⟨u, hu, h⟩ := Option.bind_eq_some_iff.mp h
    unfold service at h
    split at h
    · exact rxService_outcome hu ‹_› h
    · split at h
      · exact txService_outcome hu ‹_› h
      · cases h
        exact errService_outcome hu
  · cases h

/-- TX_LOAD(i) takes place where it is enabled and loads the shift register (45_line_side.md R293). -/
theorem txLoadStep_next {i : Nat} {s t : State} (h : txLoadStep i s = some t) :
    ∃ u, s.inst[i]? = some u ∧ txLoadEnabled u = true ∧ t = s.setInst i (txLoaded u) := by
  obtain ⟨u, hu, h⟩ := Option.bind_eq_some_iff.mp h
  split at h
  · exact ⟨u, hu, ‹_›, by simpa using h.symm⟩
  · cases h

/-- TX_SHIFT_DONE(i) puts the frame of the shift register on the wire (R294). -/
theorem txShiftDoneStep_next {i : Nat} {s t : State} (h : txShiftDoneStep i s = some t) :
    ∃ u f, s.inst[i]? = some u ∧ u.txShift = some f ∧ t = s.setInst i (txShifted f u) := by
  obtain ⟨u, hu, h⟩ := Option.bind_eq_some_iff.mp h
  obtain ⟨f, hf, rfl⟩ := Option.map_eq_some_iff.mp h
  exact ⟨u, f, hu, hf, rfl⟩

/-- RX_FRAME(i, f) writes instance `i` alone (R296). -/
theorem rxFrameStep_next {i : Nat} {f : RxFrame} {s t : State} (h : rxFrameStep i f s = some t) :
    ∃ u, s.inst[i]? = some u ∧ t = s.setInst i (rxReceived f u) := by
  obtain ⟨u, hu, rfl⟩ := Option.map_eq_some_iff.mp h
  exact ⟨u, hu, rfl⟩

/-! ## Packets and handlers -/

/-- Delivering a packet: its command runs, or an illegal packet is logged (30_encoding.md R119). -/
theorem runPacket_next {p : Packet} {s t : State} (h : runPacket p s = .next t) :
    (∃ c, decode p = .ok c ∧ exec c s = .next t) ∨ t = s.finish p.w0 .invalidArgument := by
  unfold runPacket at h
  split at h
  · exact .inr (by simpa using h.symm)
  · exact .inl ⟨_, ‹_›, h⟩

/-- A step of interrupt context: the handler's next packet, or its return (60_exceptions.md R328). -/
theorem interruptStep_next {s t : State} (h : interruptStep s = some (.next t)) :
    (∃ i ev p rest, s.ic = .active i ev (p :: rest) ∧ runPacket p { s with ic := .active i ev rest } = .next t) ∨
      t = s.icReturn := by
  unfold interruptStep at h
  split at h
  · cases h
  · exact .inl ⟨_, _, _, _, ‹_›, by simpa using h⟩
  · exact .inr (by simpa using h.symm)

/-- FG issues a packet only where it may (10_state.md R45). -/
theorem offer_command_next {p : Packet} {s t : State} (h : offer (.command p) s = some (.next t)) :
    commandEnabled s = true ∧ runPacket p s = .next t := by
  simpa [offer] using h

/-- An agent whose step answers a state offers that state. -/
theorem eq_some_of_map_next {o : Option State} {t : State}
    (h : o.map (Host.Outcome.next (φ := Fault) (ρ := Refusal)) = some (.next t)) : o = some t := by
  obtain ⟨r, hr, hrt⟩ := Option.map_eq_some_iff.mp h
  cases hrt
  exact hr

end Sys2Proof.Machine

/-! PROOFS of 10_state.md: what the steps leave unchanged. -/

namespace Sys2Proof.Machine

/-! ## What an event writes -/

/-- What an event of the agenda makes of instance `i`, from `u` to `v`. -/
inductive Writes (s : State) : Event → Nat → InstState → InstState → Prop
  | command {ev : Event} {c : Instr} {u v : InstState} {g : FgState} (hdelivers : Delivers s ev c)
      (hw : CommandWrites s.params s.fg c u v g) : Writes s ev c.inst u v
  | loop {i : Nat} {u v : InstState} {g : FgState} (hw : LoopWrites i s.fg u v g) : Writes s .foreground i u v
  | service {i : Nat} {u v : InstState} (hw : ServiceWrites u v) : Writes s (.dispatch i) i u v
  | load {i : Nat} {u : InstState} (henabled : txLoadEnabled u = true) : Writes s (.txLoad i) i u (txLoaded u)
  | shift {i : Nat} {u : InstState} {f : TxFrame} (hframe : u.txShift = some f) :
      Writes s (.txShiftDone i) i u (txShifted f u)
  | receive {i : Nat} {u : InstState} {f : RxFrame} : Writes s (.rxFrame i f) i u (rxReceived f u)

/-- What an event leaves alone: the parameters, the agenda, the number of instances, the logs' beginnings, the handler but for
the dispatcher and the handler's own steps, and every instance but for the writes of `Writes`. -/
structure EventFrame (s : State) (ev : Event) (t : State) : Prop where
  params : t.params = s.params
  agenda : t.agenda = s.agenda
  length : t.inst.length = s.inst.length
  trace : s.trace <+: t.trace
  faults : s.faults <+: t.faults
  ic : ev ≠ .interrupt → (∀ j, ev ≠ .dispatch j) → t.ic = s.ic
  inst : ∀ i u v, s.inst[i]? = some u → t.inst[i]? = some v → v = u ∨ Writes s ev i u v

/-- An element of a list with the element at `i` replaced: as before, or the replacement. -/
theorem getElem?_set_cases {α : Type} {l : List α} {i j : Nat} {u u' v w : α} (hu : l[i]? = some u) (hu' : l[j]? = some u')
    (hw : (l.set i v)[j]? = some w) : w = u' ∨ j = i ∧ u' = u ∧ w = v := by
  by_cases hij : i = j
  · subst hij
    rw [List.getElem?_set_self (List.getElem?_eq_some_iff.mp hu).1] at hw
    exact .inr ⟨rfl, by simp_all, by simp_all⟩
  · rw [List.getElem?_set_ne hij] at hw
    exact .inl (by simp_all)

/-- Only one instance is replaced, by a write of the event. -/
theorem inst_cases_of_set {s t : State} {ev : Event} {i : Nat} {u v : InstState} (hu : s.inst[i]? = some u)
    (hw : Writes s ev i u v) (ht : t.inst = s.inst.set i v) (j : Nat) (u' w : InstState) (hu' : s.inst[j]? = some u')
    (hv : t.inst[j]? = some w) : w = u' ∨ Writes s ev j u' w := by
  rcases getElem?_set_cases hu hu' (ht ▸ hv) with h | ⟨rfl, rfl, rfl⟩
  · exact .inl h
  · exact .inr hw

/-- No instance is replaced. -/
theorem inst_cases_of_same {s t : State} {ev : Event} (ht : t.inst = s.inst) (j : Nat) (u w : InstState)
    (hu : s.inst[j]? = some u) (hw : t.inst[j]? = some w) : w = u ∨ Writes s ev j u w :=
  .inl (by simp_all)

/-- A line-side event replaces one instance and touches nothing else. -/
theorem eventFrame_setInst {s : State} {ev : Event} {i : Nat} {u v : InstState} (hu : s.inst[i]? = some u)
    (hw : Writes s ev i u v) : EventFrame s ev (s.setInst i v) where
  params := rfl
  agenda := rfl
  length := by simp
  trace := List.prefix_rfl
  faults := List.prefix_rfl
  ic _ _ := rfl
  inst := inst_cases_of_set hu hw rfl

/-- A command run in the context `x`, by FG in its own or by a handler's step. -/
theorem exec_eventFrame {s t : State} {ev : Event} {c : Instr} {x : IcState} (hx : ev = .interrupt ∨ x = s.ic)
    (hdelivers : Delivers s ev c) (h : exec c { s with ic := x } = .next t) : EventFrame s ev t := by
  have hic : ev ≠ .interrupt → (∀ j, ev ≠ .dispatch j) → x = s.ic := fun hev _ => hx.resolve_left hev
  cases exec_outcome h with
  | logs l fs => exact ⟨rfl, rfl, rfl, List.prefix_append .., List.prefix_append .., hic, inst_cases_of_same rfl⟩
  | writes hu hw l =>
    exact ⟨rfl, rfl, List.length_set, List.prefix_append .., List.prefix_rfl, hic,
      inst_cases_of_set hu (.command hdelivers hw) rfl⟩

/-- A packet delivered in the context `x`. -/
theorem runPacket_eventFrame {s t : State} {ev : Event} {p : Packet} {x : IcState} (hx : ev = .interrupt ∨ x = s.ic)
    (hdelivers : ∀ c, decode p = .ok c → Delivers s ev c) (h : runPacket p { s with ic := x } = .next t) :
    EventFrame s ev t := by
  rcases runPacket_next h with ⟨c, hc, h⟩ | rfl
  · exact exec_eventFrame hx (hdelivers c hc) h
  · exact ⟨rfl, rfl, rfl, List.prefix_append .., List.prefix_rfl, fun hev _ => hx.resolve_left hev,
      inst_cases_of_same rfl⟩

/-- The frame of every event. -/
theorem offer_eventFrame {s t : State} {ev : Event} (h : offer ev s = some (.next t)) : EventFrame s ev t := by
  cases ev with
  | command p =>
    exact runPacket_eventFrame (.inr rfl) (fun c hc => .inl ⟨p, rfl, hc⟩) (offer_command_next h).2
  | interrupt =>
    rcases interruptStep_next h with ⟨i, e, p, rest, hic, h⟩ | rfl
    · exact runPacket_eventFrame (.inl rfl) (fun c hc => .inr ⟨rfl, i, e, p, rest, hic, hc⟩) h
    · exact ⟨rfl, rfl, rfl, List.prefix_rfl, List.prefix_rfl, fun hev => absurd rfl hev, inst_cases_of_same rfl⟩
  | foreground =>
    cases foregroundStep_outcome (eq_some_of_map_next h) with
    | writes hu hw hm l =>
      exact ⟨rfl, rfl, List.length_set, List.prefix_append .., List.prefix_rfl, fun _ _ => rfl,
        inst_cases_of_set hu (.loop hw) rfl⟩
  | dispatch i =>
    cases dispatchStep_outcome (eq_some_of_map_next h) with
    | broken =>
      exact ⟨rfl, rfl, rfl, List.prefix_rfl, List.prefix_append .., fun _ hev => absurd rfl (hev i),
        inst_cases_of_same rfl⟩
    | writes hu hw hic hm l =>
      exact ⟨rfl, rfl, List.length_set, List.prefix_append .., List.prefix_rfl, fun _ hev => absurd rfl (hev i),
        inst_cases_of_set hu (.service hw) rfl⟩
  | txLoad i =>
    obtain ⟨u, hu, henabled, rfl⟩ := txLoadStep_next (eq_some_of_map_next h)
    exact eventFrame_setInst hu (.load henabled)
  | txShiftDone i =>
    obtain ⟨u, f, hu, hf, rfl⟩ := txShiftDoneStep_next (eq_some_of_map_next h)
    exact eventFrame_setInst hu (.shift hf)
  | rxFrame i f =>
    obtain ⟨u, hu, rfl⟩ := rxFrameStep_next (eq_some_of_map_next h)
    exact eventFrame_setInst hu .receive
  | hostWrite a v =>
    cases h
    exact ⟨rfl, rfl, rfl, List.prefix_rfl, List.prefix_rfl, fun _ _ => rfl, inst_cases_of_same rfl⟩

/-! ## The wire and the shift register -/

/-- No command writes the wire log, and only INIT and DEINIT the shift register. -/
theorem commandWrites_wire_txShift {p : Params} {g g' : FgState} {c : Instr} {u v : InstState}
    (h : CommandWrites p g c u v g') : v.wire = u.wire ∧
      (v.txShift = u.txShift ∨ v.txShift = none ∧ (c.op = .init ∨ c.op = .deinit)) := by
  cases h with
  | init | deinit => exact ⟨rfl, .inr ⟨rfl, by simp [Instr.op]⟩⟩
  | _ => exact ⟨rfl, .inl rfl⟩

/-- FG's loop writes neither. -/
theorem loopWrites_wire_txShift {i : Nat} {g g' : FgState} {u v : InstState} (h : LoopWrites i g u v g') :
    v.wire = u.wire ∧ v.txShift = u.txShift := by
  cases h <;> exact ⟨rfl, rfl⟩

/-- The dispatcher writes neither. -/
theorem serviceWrites_wire_txShift {u v : InstState} (h : ServiceWrites u v) :
    v.wire = u.wire ∧ v.txShift = u.txShift := by
  cases h <;> exact ⟨rfl, rfl⟩

/-- The three outcomes of RX_FRAME: nothing, the overrun flag, or the latch with its flags (45_line_side.md R296, R298, R299). -/
theorem rxReceived_cases (f : RxFrame) (u : InstState) :
    rxReceived f u = u ∨ rxReceived f u = { u with stat := setBit u.stat Stat.or true } ∨
      ∃ parity, rxReceived f u = { u with
        rdr := BitVec.ofNat 10 (rxValue u.ctrl f)
        stat := raiseFlag (raiseFlag (raiseFlag (setBit u.stat Stat.rdrf true) Stat.fe (!f.stopOk)) Stat.nf f.noisy)
          Stat.pf parity } := by
  unfold rxReceived
  split
  · exact .inl rfl
  · split
    · exact .inr (.inl rfl)
    · exact .inr (.inr ⟨_, rfl⟩)

/-- RX_FRAME writes STAT and RDR alone. -/
theorem rxReceived_eq (f : RxFrame) (u : InstState) :
    rxReceived f u = { u with stat := (rxReceived f u).stat, rdr := (rxReceived f u).rdr } := by
  rcases rxReceived_cases f u with h | h | ⟨_, h⟩ <;> rw [h]

/-- A frame in the shift register stays, or TX_SHIFT_DONE sends it, or INIT or DEINIT drops it. -/
theorem writes_wire_txShift {s : State} {ev : Event} {i : Nat} {u v : InstState} {f : TxFrame} (h : Writes s ev i u v)
    (hf : u.txShift = some f) :
    (v.txShift = some f ∧ v.wire = u.wire) ∨ (ev = .txShiftDone i ∧ v.txShift = none ∧ v.wire = u.wire ++ [f]) ∨
      (v.txShift = none ∧ v.wire = u.wire ∧ ∃ c, Delivers s ev c ∧ c.inst = i ∧ (c.op = .init ∨ c.op = .deinit)) := by
  cases h with
  | command hdelivers hw =>
    obtain ⟨hwire, hshift | ⟨hnone, hop⟩⟩ := commandWrites_wire_txShift hw
    · exact .inl ⟨hshift.trans hf, hwire⟩
    · exact .inr (.inr ⟨hnone, hwire, _, hdelivers, rfl, hop⟩)
  | loop hw => exact .inl ((loopWrites_wire_txShift hw).symm.imp (·.trans hf) id)
  | service hw => exact .inl ((serviceWrites_wire_txShift hw).symm.imp (·.trans hf) id)
  | load henabled => simp [txLoadEnabled, hf] at henabled
  | shift hframe =>
    obtain rfl : _ = f := by simpa [hframe] using hf
    exact .inr (.inl ⟨rfl, rfl, rfl⟩)
  | receive =>
    rw [rxReceived_eq]
    exact .inl ⟨hf, rfl⟩

/-- An opcode of INIT or DEINIT is that of an INIT or a DEINIT. -/
theorem eq_init_or_deinit {c : Instr} (h : c.op = .init ∨ c.op = .deinit) :
    (∃ a b, c = .init c.inst a b) ∨ c = .deinit c.inst := by
  cases c <;> simp_all [Instr.op, Instr.inst]

/-- Settles O58: the frame of every event, then the write of the shift register. -/
theorem shiftingFrameIsNotLost : Obligations.ShiftingFrameIsNotLost := by
  rintro ev s t i u v f ⟨-, hoffer⟩ hu hf hv
  rcases (offer_eventFrame hoffer).inst i u v hu hv with rfl | hw
  · exact .inl ⟨hf, rfl⟩
  · rcases writes_wire_txShift hw hf with h | h | ⟨hnone, hwire, c, hdelivers, rfl, hop⟩
    · exact .inl h
    · exact .inr (.inl h)
    · refine .inr (.inr ⟨hnone, hwire, ?_⟩)
      rcases eq_init_or_deinit hop with ⟨a, b, hc⟩ | hc
      · exact .inl ⟨a, b, hc ▸ hdelivers⟩
      · exact .inr (hc ▸ hdelivers)

/-! ## The logs -/

/-- An event extends the wire log at its end or leaves it. -/
theorem writes_wire_prefix {s : State} {ev : Event} {i : Nat} {u v : InstState} (h : Writes s ev i u v) :
    u.wire <+: v.wire := by
  cases h with
  | command _ hw => rw [(commandWrites_wire_txShift hw).1]
  | loop hw => rw [(loopWrites_wire_txShift hw).1]
  | service hw => rw [(serviceWrites_wire_txShift hw).1]
  | load => exact List.prefix_rfl
  | shift => exact List.prefix_append ..
  | receive => rw [rxReceived_eq]

/-- Settles O53: an idle step and a lapsed entry change no log; an event extends them. -/
theorem logsOnlyGrow : Obligations.LogsOnlyGrow := by
  intro s t hstep
  have hsame : ∀ (i : Nat) (u v : InstState), s.inst[i]? = some u → s.inst[i]? = some v → u.wire <+: v.wire := by
    intro i u v hu hv
    obtain rfl : u = v := by simpa [hu] using hv
    exact List.prefix_rfl
  obtain ⟨-, ⟨-, rfl⟩ | ⟨ev, rest, -, hadvance⟩⟩ := step_next hstep
  · exact ⟨rfl, rfl, List.prefix_rfl, List.prefix_rfl, hsame⟩
  · rcases advance_next hadvance with hoffer | ⟨-, rfl⟩
    · have hframe := offer_eventFrame hoffer
      refine ⟨hframe.params, hframe.length, hframe.trace, hframe.faults, fun i u v hu hv => ?_⟩
      rcases hframe.inst i u v hu hv with rfl | hw
      · exact List.prefix_rfl
      · exact writes_wire_prefix hw
    · exact ⟨rfl, rfl, List.prefix_rfl, List.prefix_rfl, hsame⟩

/-! ## Commands -/

/-- Only the two blocking commands change FG's loop. -/
theorem commandWrites_fg {p : Params} {g g' : FgState} {c : Instr} {u v : InstState} (h : CommandWrites p g c u v g')
    (hsend : c.op ≠ .sendBlocking) (hrecv : c.op ≠ .recvBlocking) : g' = g := by
  cases h with
  | sendBlocking => exact absurd rfl hsend
  | recvBlocking => exact absurd rfl hrecv
  | _ => rfl

/-- Settles O54, by the outcomes of a command. -/
theorem commandTouchesItsInstanceAlone : Obligations.CommandTouchesItsInstanceAlone := by
  intro c s t h
  cases exec_outcome h with
  | logs l fs => exact ⟨rfl, fun _ _ => rfl, fun _ => rfl, rfl, rfl, rfl, fun _ _ => rfl⟩
  | writes hu hw l =>
    exact ⟨List.length_set, fun j hj => List.getElem?_set_ne hj.symm, fun _ => rfl, rfl, rfl, rfl, commandWrites_fg hw⟩

/-- A command leaves an instance, or it is the command's own and written by it. -/
theorem exec_inst_cases {c : Instr} {s t : State} {i : Nat} {u v : InstState} (h : exec c s = .next t)
    (hu : s.inst[i]? = some u) (hv : t.inst[i]? = some v) : v = u ∨ ∃ g, CommandWrites s.params s.fg c u v g := by
  cases exec_outcome h with
  | logs l fs => exact .inl (by simp_all)
  | writes hu' hw l =>
    rcases getElem?_set_cases hu' hu hv with h | ⟨-, rfl, rfl⟩
    · exact .inl h
    · exact .inr ⟨_, hw⟩

end Sys2Proof.Machine

/-! PROOFS of 10_state.md: the registers' bits that commands and events write. -/

namespace Sys2Proof.Machine

/-! ## Registers written in some bits only -/

/-- Nothing is written. -/
theorem SameBut.refl (ks : List Nat) (w : Word) : SameBut ks w w := fun _ _ _ => rfl

/-- One more bit of the list is written. -/
theorem SameBut.setBit {ks : List Nat} {w w' : Word} (h : SameBut ks w w') (k : Nat) (b : Bool) (hk : k ∈ ks)
    (hlt : k < 32) : SameBut ks w (Machine.setBit w' k b) := by
  intro j hj hjks
  have hne : j ≠ k := fun e => hjks (e ▸ hk)
  exact (bit_setBit_other w' k b j hlt hne).trans (h j hj hjks)

/-- A longer list of bits. -/
theorem SameBut.mono {ks ks' : List Nat} {w w' : Word} (h : SameBut ks w w') (hsub : ks ⊆ ks') : SameBut ks' w w' :=
  fun j hj hjks => h j hj fun hmem => hjks (hsub hmem)

/-- Bits outside the list are kept. -/
theorem SameBut.bits_kept {ks js : List Nat} {w w' : Word} (h : SameBut ks w w') (hjs : ∀ j ∈ js, j < 32 ∧ j ∉ ks) :
    ∀ j ∈ js, bit w' j = bit w j :=
  fun j hj => h j (hjs j hj).1 (hjs j hj).2

/-- The four error enables are written. -/
theorem SameBut.withErrorEnables {ks : List Nat} {w w' : Word} (h : SameBut ks w w') (b : Bool)
    (hks : [Ctrl.orie, Ctrl.neie, Ctrl.feie, Ctrl.peie] ⊆ ks) : SameBut ks w (Machine.withErrorEnables w' b) :=
  (((h.setBit Ctrl.orie b (hks (by decide)) (by decide)).setBit Ctrl.neie b (hks (by decide)) (by decide)).setBit
    Ctrl.feie b (hks (by decide)) (by decide)).setBit Ctrl.peie b (hks (by decide)) (by decide)

/-- The receive enables are cleared. -/
theorem sameBut_withReceiveOff (w : Word) :
    SameBut [Ctrl.re, Ctrl.rie, Ctrl.peie, Ctrl.feie, Ctrl.neie, Ctrl.orie] w (withReceiveOff w) :=
  (((SameBut.refl _ w).setBit Ctrl.rie false (by decide) (by decide)).withErrorEnables false (by decide)).setBit
    Ctrl.re false (by decide) (by decide)

/-- The bits of CTRL the width and the parity do not decide (10_state.md R39). -/
def Ctrl.enables : List Nat :=
  [Ctrl.re, Ctrl.te, Ctrl.rie, Ctrl.tie, Ctrl.peie, Ctrl.feie, Ctrl.neie, Ctrl.orie]

/-- ProgramBaud leaves SBNS (40_divisor_search.md R146). -/
theorem sbns_programBaud (p : Params) (i : Nat) (c : UartConfig) (w : Word) :
    bit (programBaud p i c w) Baud.sbns = bit w Baud.sbns := by
  simp only [bit, programBaud, Baud.withSbr, Baud.withOsr]
  rw [getLsbD_setBit _ _ _ _ (by decide), getLsbD_setField _ _ _ _ _ (by decide) (by decide),
    getLsbD_setField _ _ _ _ _ (by decide) (by decide)]
  rfl

/-! ## Commands -/

/-- The bits of CTRL a command may write: the "written by" column of 10_state.md R39. -/
def Op.ctrlWritten : Op → List Nat
  | .init | .deinit => List.range 32
  | .txEnable | .txDisable | .sendBlocking => [Ctrl.te]
  | .rxEnable | .rxDisable | .recvBlocking => [Ctrl.re]
  | .sendAsync | .abortSend => [Ctrl.te, Ctrl.tie]
  | .recvAsync | .abortRecv => [Ctrl.re, Ctrl.rie, Ctrl.peie, Ctrl.feie, Ctrl.neie, Ctrl.orie]
  | .setbaud | .regCallback | .regErrCallback | .getTxStatus | .getRxStatus => []

/-- The bits of STAT a command may write (10_state.md R40). -/
def Op.statWritten : Op → List Nat
  | .init | .deinit => List.range 32
  | .abortSend => [Stat.tc, Stat.tdre]
  | .abortRecv => [Stat.rdrf]
  | .setbaud | .sendBlocking | .sendAsync | .recvBlocking | .recvAsync | .txEnable | .txDisable | .rxEnable | .rxDisable
  | .regCallback | .regErrCallback | .getTxStatus | .getRxStatus => []

/-- A command writes only its own bits of CTRL. -/
theorem commandWrites_ctrl {p : Params} {g g' : FgState} {c : Instr} {u v : InstState} (h : CommandWrites p g c u v g') :
    SameBut (Op.ctrlWritten c.op) u.ctrl v.ctrl := by
  cases h with
  | init | deinit => exact fun k hk hn => absurd (List.mem_range.mpr hk) hn
  | setbaud | regCallback | regErrCallback => exact .refl _ _
  | txEnable | txDisable | rxEnable | rxDisable | sendBlocking | recvBlocking =>
    simp only [Instr.op, Op.ctrlWritten]
    exact (SameBut.refl _ u.ctrl).setBit _ _ (by decide) (by decide)
  | sendAsync | abortSend =>
    simp only [Instr.op, Op.ctrlWritten]
    exact ((SameBut.refl _ u.ctrl).setBit _ _ (by decide) (by decide)).setBit _ _ (by decide) (by decide)
  | recvAsync =>
    simp only [Instr.op, Op.ctrlWritten]
    exact (((SameBut.refl _ u.ctrl).withErrorEnables _ (by decide)).setBit _ _ (by decide) (by decide)).setBit
      _ _ (by decide) (by decide)
  | abortRecv => exact sameBut_withReceiveOff u.ctrl

/-- ABORT_SEND writes TDRE and TC alone (43_transfer_ops.md R227). -/
theorem sameBut_abortedTx_stat (u : InstState) : SameBut [Stat.tc, Stat.tdre] u.stat (abortedTx u).stat := by
  have htdre := (SameBut.refl [Stat.tc, Stat.tdre] u.stat).setBit Stat.tdre true (by decide) (by decide)
  unfold abortedTx
  dsimp only
  split
  · exact htdre.setBit Stat.tc true (by decide) (by decide)
  · exact htdre

/-- A command writes only its own bits of STAT. -/
theorem commandWrites_stat {p : Params} {g g' : FgState} {c : Instr} {u v : InstState} (h : CommandWrites p g c u v g') :
    SameBut (Op.statWritten c.op) u.stat v.stat := by
  cases h with
  | init | deinit => exact fun k hk hn => absurd (List.mem_range.mpr hk) hn
  | abortSend => exact sameBut_abortedTx_stat u
  | abortRecv =>
    simp only [Instr.op, Op.statWritten]
    exact (SameBut.refl _ u.stat).setBit _ _ (by decide) (by decide)
  | _ => exact .refl _ _

/-- A register none of whose bits are written. -/
theorem SameBut.eq_of_nil {w w' : Word} (h : SameBut [] w w') : w' = w :=
  BitVec.eq_of_getLsbD_eq fun k hk => h k hk (by simp)

/-- Settles O55: CTRL and STAT by the bits each command may write, the other pieces by the commands that write them. -/
theorem onlyListedCommandsWrite : Obligations.OnlyListedCommandsWrite := by
  intro c s t i u v h hu hv
  rcases exec_inst_cases h hu hv with rfl | ⟨g, hw⟩
  · simp
  have hctrl := commandWrites_ctrl hw
  have hstat := commandWrites_stat hw
  refine ⟨?cfg, ?cb, ?line, ?sbns, ?stat, ?err, ?rdrf, ?tx, ?latches, ?txBuf, ?rxBuf, ?framing, ?re, ?te, ?tie, ?rx,
    (commandWrites_wire_txShift hw).1⟩
  case cfg =>
    intro hop
    cases hw with
    | init | setbaud | deinit => simp [Instr.op] at hop
    | _ => exact ⟨rfl, rfl⟩
  case cb =>
    intro hop
    cases hw with
    | regCallback | regErrCallback | deinit => simp [Instr.op] at hop
    | _ => rfl
  case line =>
    intro hop
    cases hw with
    | sendAsync | recvAsync | deinit => simp [Instr.op] at hop
    | _ => rfl
  case latches =>
    intro hop
    cases hw with
    | init | deinit => simp [Instr.op] at hop
    | _ => exact ⟨rfl, rfl, rfl, rfl⟩
  case txBuf =>
    intro hop
    cases hw with
    | init | deinit | sendAsync | abortSend => simp [Instr.op] at hop
    | _ => rfl
  case rxBuf =>
    intro hop
    cases hw with
    | init | deinit | recvAsync | recvBlocking | abortRecv => simp [Instr.op] at hop
    | _ => rfl
  case sbns =>
    intro hop
    cases hw with
    | init | deinit => simp [Instr.op] at hop
    | setbaud => exact sbns_programBaud ..
    | _ => rfl
  case stat =>
    intro hop
    refine SameBut.eq_of_nil (hstat.mono ?_)
    revert hop
    cases c.op <;> decide
  case err | tx =>
    intro hop
    refine hstat.bits_kept ?_
    revert hop
    cases c.op <;> decide
  case framing | rx =>
    intro hop
    refine hctrl.bits_kept ?_
    revert hop
    cases c.op <;> decide
  case rdrf =>
    intro hop
    refine hstat _ (by decide) ?_
    revert hop
    cases c.op <;> decide
  case re | te | tie =>
    intro hop
    refine hctrl _ (by decide) ?_
    revert hop
    cases c.op <;> decide

/-! ## Events -/

/-- The configuration, the slots, the line enable and MATCH are kept, and CTRL is written in its enables alone. -/
structure KeepsConfig (u v : InstState) : Prop where
  cfg : v.cfg = u.cfg
  baud : v.baud = u.baud
  cb : v.cb = u.cb
  lineEn : v.lineEn = u.lineEn
  matchReg : v.matchReg = u.matchReg
  ctrl : SameBut Ctrl.enables u.ctrl v.ctrl

/-- FG's loop keeps the configuration. -/
theorem loopWrites_keepsConfig {i : Nat} {g g' : FgState} {u v : InstState} (h : LoopWrites i g u v g') :
    KeepsConfig u v := by
  have hset (k : Nat) (hk : k ∈ Ctrl.enables) (hlt : k < 32) : SameBut Ctrl.enables u.ctrl (setBit u.ctrl k false) :=
    (SameBut.refl _ u.ctrl).setBit k false hk hlt
  cases h with
  | sendData | sendNext | recvNext => exact ⟨rfl, rfl, rfl, rfl, rfl, .refl _ _⟩
  | sendEnd => exact ⟨rfl, rfl, rfl, rfl, rfl, hset Ctrl.te (by decide) (by decide)⟩
  | recvEnd => exact ⟨rfl, rfl, rfl, rfl, rfl, hset Ctrl.re (by decide) (by decide)⟩

/-- FG's loop writes neither RDR nor a transfer buffer. -/
theorem loopWrites_keepsBuffers {i : Nat} {g g' : FgState} {u v : InstState} (h : LoopWrites i g u v g') :
    v.rdr = u.rdr ∧ v.tx = u.tx ∧ v.rx = u.rx := by
  cases h <;> exact ⟨rfl, rfl, rfl⟩

/-- The dispatcher keeps the configuration. -/
theorem serviceWrites_keepsConfig {u v : InstState} (h : ServiceWrites u v) : KeepsConfig u v := by
  cases h with
  | rxServed | txServed => exact ⟨rfl, rfl, rfl, rfl, rfl, .refl _ _⟩
  | rxCompleted => exact ⟨rfl, rfl, rfl, rfl, rfl, (sameBut_withReceiveOff u.ctrl).mono (by decide)⟩
  | txCompleted => exact ⟨rfl, rfl, rfl, rfl, rfl, (SameBut.refl _ u.ctrl).setBit _ _ (by decide) (by decide)⟩
  | errServed => exact ⟨rfl, rfl, rfl, rfl, rfl, (SameBut.refl _ u.ctrl).withErrorEnables _ (by decide)⟩

/-- RX_FRAME keeps the configuration. -/
theorem rxReceived_keepsConfig (f : RxFrame) (u : InstState) : KeepsConfig u (rxReceived f u) := by
  rw [rxReceived_eq]
  exact ⟨rfl, rfl, rfl, rfl, rfl, .refl _ _⟩

/-- Every event but a command keeps the configuration. -/
theorem writes_keepsConfig {s : State} {ev : Event} {i : Nat} {u v : InstState} (hcommand : ∀ p, ev ≠ .command p)
    (hinterrupt : ev ≠ .interrupt) (h : Writes s ev i u v) : KeepsConfig u v := by
  cases h with
  | command hdelivers =>
    rcases hdelivers with ⟨p, hp, -⟩ | ⟨hi, -⟩
    · exact absurd hp (hcommand p)
    · exact absurd hi hinterrupt
  | loop hw => exact loopWrites_keepsConfig hw
  | service hw => exact serviceWrites_keepsConfig hw
  | load | shift => exact ⟨rfl, rfl, rfl, rfl, rfl, .refl _ _⟩
  | receive => exact rxReceived_keepsConfig _ _

/-- Every event but a command keeps RDR, the wire and the transfer buffers, but for the three events that write them. -/
theorem writes_keepsData {s : State} {ev : Event} {i : Nat} {u v : InstState} (hcommand : ∀ p, ev ≠ .command p)
    (hinterrupt : ev ≠ .interrupt) (h : Writes s ev i u v) :
    ((∀ f, ev ≠ .rxFrame i f) → v.rdr = u.rdr) ∧ (ev ≠ .txShiftDone i → v.wire = u.wire) ∧
      ((∀ j, ev ≠ .dispatch j) → v.tx = u.tx ∧ v.rx = u.rx) := by
  cases h with
  | command hdelivers =>
    rcases hdelivers with ⟨p, hp, -⟩ | ⟨hi, -⟩
    · exact absurd hp (hcommand p)
    · exact absurd hi hinterrupt
  | loop hw =>
    obtain ⟨hrdr, hbufs⟩ := loopWrites_keepsBuffers hw
    exact ⟨fun _ => hrdr, fun _ => (loopWrites_wire_txShift hw).1, fun _ => hbufs⟩
  | service hw => cases hw <;> exact ⟨fun _ => rfl, fun _ => rfl, fun hev => absurd rfl (hev i)⟩
  | load => exact ⟨fun _ => rfl, fun _ => rfl, fun _ => ⟨rfl, rfl⟩⟩
  | shift => exact ⟨fun _ => rfl, fun hev => absurd rfl hev, fun _ => ⟨rfl, rfl⟩⟩
  | receive =>
    rw [rxReceived_eq]
    exact ⟨fun hev => absurd rfl (hev _), fun _ => rfl, fun _ => ⟨rfl, rfl⟩⟩

/-- Settles O56: the frame of every event, then what it writes on the instance. -/
theorem eventsKeepConfiguration : Obligations.EventsKeepConfiguration := by
  intro ev s t i u v hcommand hinterrupt hoffer hu hv
  have hframe := offer_eventFrame hoffer
  rcases hframe.inst i u v hu hv with rfl | hw
  · simpa using hframe.ic hinterrupt
  · have hkeeps := writes_keepsConfig hcommand hinterrupt hw
    obtain ⟨hrdr, hwire, hbufs⟩ := writes_keepsData hcommand hinterrupt hw
    exact ⟨hkeeps.cfg, hkeeps.baud, hkeeps.cb, hkeeps.lineEn, hkeeps.matchReg,
      hkeeps.ctrl.bits_kept (by decide), hrdr, hwire, fun hev => ⟨hframe.ic hinterrupt hev, hbufs hev⟩⟩

end Sys2Proof.Machine

/-! PROOFS of 10_state.md: the invariant of one instance. -/

namespace Sys2Proof.Machine

/-! ## The invariant by directions -/

/-- A transfer in flight: the line is enabled and the buffer has whole characters left (10_state.md R36, 43_transfer_ops.md
R220). -/
def BufferRuns {Status : Type} (cfg : Option UartConfig) (lineEn : Bool) (b : TransferBuffer Status) : Prop :=
  lineEn = true ∧ b.addr ≠ 0 ∧ b.progress.toNat < b.len.toNat ∧
    ∀ c ∈ cfg, b.progress.toNat % stride (effw c) = 0 ∧ b.len.toNat % stride (effw c) = 0 ∧
      b.addr.toNat + b.len.toNat ≤ 2 ^ 32

/-- The transmit direction's share of R36, R37 and what acceptance adds. -/
structure TxSideOk (u : InstState) : Prop where
  tie : bit u.ctrl Ctrl.tie = true → u.tx.busy = true
  busy_iff : u.tx.busy = true ↔ u.tx.status = .busy
  le : u.tx.progress.toNat ≤ u.tx.len.toNat
  runs : u.tx.busy = true → BufferRuns u.cfg u.lineEn u.tx

/-- The receive direction's share; the four error enables are equal. -/
structure RxSideOk (u : InstState) : Prop where
  rie : bit u.ctrl Ctrl.rie = true → u.rx.busy = true
  orie : bit u.ctrl Ctrl.orie = true → u.rx.busy = true
  errEq : ∀ k ∈ [Ctrl.neie, Ctrl.feie, Ctrl.peie], bit u.ctrl k = bit u.ctrl Ctrl.orie
  busy : u.rx.status = .busy → u.rx.busy = true
  status : u.rx.busy = true → u.rx.status ≠ .uninitialized ∧ u.rx.status ≠ .ready
  le : u.rx.progress.toNat ≤ u.rx.len.toNat
  runs : u.rx.busy = true → BufferRuns u.cfg u.lineEn u.rx

/-- The invariant of instance `i`, by registers, pipeline, configuration and the two directions. -/
structure InstOk (p : Params) (i : Nat) (u : InstState) : Prop where
  regs : RegsOk u
  pipeline : PipelineOk u
  cfg : CfgOk p i u
  tx : TxSideOk u
  rx : RxSideOk u

/-- The two readings of the invariant of an instance agree. -/
theorem instOk_iff {p : Params} {i : Nat} {u : InstState} : instOk p i u = true ↔ InstOk p i u := by
  simp only [instOk, Bool.and_eq_true, decide_eq_true_eq]
  constructor
  · rintro ⟨⟨⟨⟨⟨hregs, hpipe⟩, hcfg⟩, htxLe, hrxLe, hwhole⟩, htie, hrie, htxBusy, hrxBusy, herr, hrxStatus⟩,
      htxArmed, hrxArmed, hne, hfe, hpe⟩
    refine ⟨hregs, hpipe, hcfg, ⟨htie, htxBusy, htxLe, fun hb => ?_⟩,
      ⟨hrie, fun h => herr (.inl h), by simp [hne, hfe, hpe], hrxBusy, hrxStatus, hrxLe, fun hb => ?_⟩⟩
    · obtain ⟨hline, haddr, hlt, hlen⟩ := htxArmed hb
      exact ⟨hline, haddr, hlt, fun c hc => ⟨((hwhole c hc).1 hb).1, hlen c hc, ((hwhole c hc).1 hb).2⟩⟩
    · obtain ⟨hline, haddr, hlt, hlen⟩ := hrxArmed hb
      exact ⟨hline, haddr, hlt, fun c hc => ⟨((hwhole c hc).2 hb).1, hlen c hc, ((hwhole c hc).2 hb).2⟩⟩
  · rintro ⟨hregs, hpipe, hcfg, ⟨htie, htxBusy, htxLe, htxRuns⟩, ⟨hrie, horie, heq, hrxBusy, hrxStatus, hrxLe, hrxRuns⟩⟩
    have hne := heq Ctrl.neie (by decide)
    have hfe := heq Ctrl.feie (by decide)
    have hpe := heq Ctrl.peie (by decide)
    refine ⟨⟨⟨⟨⟨hregs, hpipe⟩, hcfg⟩, htxLe, hrxLe, fun c hc => ⟨fun hb => ?_, fun hb => ?_⟩⟩, htie, hrie, htxBusy,
      hrxBusy, ?_, hrxStatus⟩, fun hb => ?_, fun hb => ?_, hne, hfe, hpe⟩
    · obtain ⟨-, -, -, hall⟩ := htxRuns hb
      exact ⟨(hall c hc).1, (hall c hc).2.2⟩
    · obtain ⟨-, -, -, hall⟩ := hrxRuns hb
      exact ⟨(hall c hc).1, (hall c hc).2.2⟩
    · rw [hne, hfe, hpe]
      simpa using horie
    · obtain ⟨hline, haddr, hlt, hall⟩ := htxRuns hb
      exact ⟨hline, haddr, hlt, fun c hc => (hall c hc).2.1⟩
    · obtain ⟨hline, haddr, hlt, hall⟩ := hrxRuns hb
      exact ⟨hline, haddr, hlt, fun c hc => (hall c hc).2.1⟩

/-! ## What keeps each share -/

/-- The flags of STAT (10_state.md R40). -/
def Stat.flags : List Nat := [Stat.pf, Stat.fe, Stat.nf, Stat.or, Stat.rdrf, Stat.tc, Stat.tdre]

/-- Reserved bits stay 0 where only listed bits are written. -/
theorem ReservedZero.sameBut {fields w w' : Word} {ks : List Nat} (h : ReservedZero fields w) (hw : SameBut ks w w')
    (hks : ∀ k ∈ ks, bit fields k = true) : ReservedZero fields w' := by
  intro j hj hfj
  have hjs : j ∉ ks := fun hmem => by simp [hks j hmem] at hfj
  exact (hw j hj hjs).trans (h j hj hfj)

/-- The effective width read back from CTRL depends on the width selects alone (41_framing_codec.md R164). -/
theorem effwCtrl_sameBut {w w' : Word} (h : SameBut Ctrl.enables w w') : effwCtrl w' = effwCtrl w := by
  unfold effwCtrl
  rw [h Ctrl.m7 (by decide) (by decide), h Ctrl.m (by decide) (by decide), h Ctrl.m10 (by decide) (by decide)]

/-- The register layout is kept by writes of enables and flags and by a character within the effective width. -/
theorem RegsOk.keep {u v : InstState} (h : RegsOk u) (hctrl : SameBut Ctrl.enables u.ctrl v.ctrl)
    (hstat : SameBut Stat.flags u.stat v.stat) (hbaud : v.baud = u.baud) (hmatch : v.matchReg = u.matchReg)
    (hrdr : v.rdr.toNat < 2 ^ effwCtrl u.ctrl) : RegsOk v := by
  obtain ⟨hctrl0, hstat0, hbaud0, hm7, hm, hosr, hsbr, hmatch0, -⟩ := h
  have hsel := hctrl.bits_kept (js := [Ctrl.m7, Ctrl.m, Ctrl.m10]) (by decide)
  simp only [List.forall_mem_cons, List.not_mem_nil, false_imp_iff, implies_true, and_true] at hsel
  obtain ⟨hkm7, hkm, hkm10⟩ := hsel
  refine ⟨hctrl0.sameBut hctrl (by decide), hstat0.sameBut hstat (by decide), hbaud ▸ hbaud0, ?_, ?_, hbaud ▸ hosr,
    hbaud ▸ hsbr, hmatch.trans hmatch0, (effwCtrl_sameBut hctrl).symm ▸ hrdr⟩
  · rwa [hkm7, hkm, hkm10]
  · rwa [hkm, hkm10]

/-- TC's meaning is kept where TC, TDRE and the shift register are. -/
theorem PipelineOk.keep {u v : InstState} (h : PipelineOk u) {ks : List Nat} (hstat : SameBut ks u.stat v.stat)
    (hks : ∀ k ∈ [Stat.tc, Stat.tdre], k < 32 ∧ k ∉ ks) (hshift : v.txShift = u.txShift) : PipelineOk v := by
  have hbits := hstat.bits_kept hks
  unfold PipelineOk
  rw [hbits Stat.tc (by decide), hbits Stat.tdre (by decide), hshift]
  exact h

/-- What the configuration programs is kept by writes of enables; without a configuration CTRL and the line stay at reset. -/
theorem CfgOk.keep {p : Params} {i : Nat} {u v : InstState} (h : CfgOk p i u) (hcfg : v.cfg = u.cfg)
    (hctrl : SameBut Ctrl.enables u.ctrl v.ctrl) (hbaud : v.baud = u.baud)
    (hnone : u.cfg = none → u.ctrl = Ctrl.resetValue → v.ctrl = Ctrl.resetValue ∧ v.lineEn = u.lineEn)
    (htx : v.tx.status = .uninitialized ↔ u.tx.status = .uninitialized)
    (hrx : v.rx.status = .uninitialized ↔ u.rx.status = .uninitialized) : CfgOk p i v := by
  obtain ⟨hreset, hsome⟩ := h
  refine ⟨fun hc => ?_, fun c hc => ?_⟩
  · obtain ⟨hctrl0, hbaud0, hline0, htx0, hrx0⟩ := hreset (hcfg ▸ hc)
    obtain ⟨hctrl', hline'⟩ := hnone (hcfg ▸ hc) hctrl0
    exact ⟨hctrl', hbaud.trans hbaud0, hline'.trans hline0, htx.mpr htx0, hrx.mpr hrx0⟩
  · obtain ⟨hwidth, hrate, heffw, hpe, hpt, hsbns, hratio, hedge, htx0, hrx0⟩ := hsome c (hcfg ▸ hc)
    rw [hbaud]
    exact ⟨hwidth, hrate, (effwCtrl_sameBut hctrl).trans heffw, (hctrl Ctrl.pe (by decide) (by decide)).trans hpe,
      (hctrl Ctrl.pt (by decide) (by decide)).trans hpt, hsbns, hratio, hedge, mt htx.mp htx0, mt hrx.mp hrx0⟩

/-- A transfer in flight keeps running under a configuration of the same width with the line still enabled. -/
theorem BufferRuns.keep {Status : Type} {cfg cfg' : Option UartConfig} {lineEn lineEn' : Bool}
    {b : TransferBuffer Status} (h : BufferRuns cfg lineEn b) (hcfg : ∀ c' ∈ cfg', ∃ c ∈ cfg, effw c = effw c')
    (hline : lineEn = true → lineEn' = true) : BufferRuns cfg' lineEn' b := by
  obtain ⟨hl, haddr, hlt, hall⟩ := h
  refine ⟨hline hl, haddr, hlt, fun c' hc' => ?_⟩
  obtain ⟨c, hc, he⟩ := hcfg c' hc'
  exact he ▸ hall c hc

/-- An accepted transfer runs (43_transfer_ops.md R220). -/
theorem BufferRuns.arm {Status : Type} {cfg : Option UartConfig} {c : UartConfig} {addr len : Word} (hcfg : cfg = some c)
    (hbuf : BufferOk c addr len) (st : Status) : BufferRuns cfg true ⟨addr, len, 0, true, st⟩ := by
  obtain ⟨haddr, hlen, hwhole, hwrap⟩ := hbuf
  refine ⟨rfl, haddr, Nat.pos_of_ne_zero (BitVec.toNat_ne.mp hlen), fun d hd => ?_⟩
  obtain rfl : c = d := by simpa [hcfg] using hd
  exact ⟨by simp, hwhole, hwrap⟩

/-- A transfer that goes on by one character, with characters left, still runs. -/
theorem BufferRuns.advance {Status : Type} {cfg : Option UartConfig} {lineEn : Bool} {c : UartConfig}
    {b : TransferBuffer Status} (h : BufferRuns cfg lineEn b) (hcfg : cfg = some c)
    (hmore : b.progress.toNat + stride (effw c) < b.len.toNat) :
    BufferRuns cfg lineEn { b with progress := BitVec.ofNat 32 (b.progress.toNat + stride (effw c)) } := by
  obtain ⟨hl, haddr, -, hall⟩ := h
  have hprogress : (BitVec.ofNat 32 (b.progress.toNat + stride (effw c))).toNat = b.progress.toNat + stride (effw c) := by
    rw [BitVec.toNat_ofNat, Nat.mod_eq_of_lt (hmore.trans b.len.isLt)]
  refine ⟨hl, haddr, hprogress.trans_lt hmore, fun d hd => ?_⟩
  obtain rfl : c = d := by simpa [hcfg] using hd
  obtain ⟨hp, hrest⟩ := hall c hd
  exact ⟨by rw [hprogress, Nat.add_mod_right, hp], hrest⟩

/-- The transmit direction is kept where TIE and the buffer are and the width is. -/
theorem TxSideOk.keep {u v : InstState} (h : TxSideOk u) (hcfg : ∀ c' ∈ v.cfg, ∃ c ∈ u.cfg, effw c = effw c')
    (hline : u.lineEn = true → v.lineEn = true) (htie : bit v.ctrl Ctrl.tie = bit u.ctrl Ctrl.tie)
    (htx : v.tx = u.tx) : TxSideOk v where
  tie := by simpa [htie, htx] using h.tie
  busy_iff := htx ▸ h.busy_iff
  le := htx ▸ h.le
  runs hb := htx ▸ (h.runs (htx ▸ hb)).keep hcfg hline

/-- A transmit direction that is not in flight: TIE is clear and the status is not Busy. -/
theorem TxSideOk.of_idle {u : InstState} (htie : bit u.ctrl Ctrl.tie = false) (hbusy : u.tx.busy = false)
    (hstatus : u.tx.status ≠ .busy) (hle : u.tx.progress.toNat ≤ u.tx.len.toNat) : TxSideOk u where
  tie := by simp [htie]
  busy_iff := by simp [hbusy, hstatus]
  le := hle
  runs := by simp [hbusy]

/-- The interrupt enables of the receive direction. -/
def Ctrl.rxEnables : List Nat := [Ctrl.rie, Ctrl.orie, Ctrl.neie, Ctrl.feie, Ctrl.peie]

/-- The receive direction is kept where its enables and the buffer are and the width is. -/
theorem RxSideOk.keep {u v : InstState} (h : RxSideOk u) (hcfg : ∀ c' ∈ v.cfg, ∃ c ∈ u.cfg, effw c = effw c')
    (hline : u.lineEn = true → v.lineEn = true) (hctrl : ∀ k ∈ Ctrl.rxEnables, bit v.ctrl k = bit u.ctrl k)
    (hrx : v.rx = u.rx) : RxSideOk v where
  rie := by simpa [hctrl Ctrl.rie (by decide), hrx] using h.rie
  orie := by simpa [hctrl Ctrl.orie (by decide), hrx] using h.orie
  errEq k hk := by
    rw [hctrl k (by revert k; decide), hctrl Ctrl.orie (by decide)]
    exact h.errEq k hk
  busy := hrx ▸ h.busy
  status := hrx ▸ h.status
  le := hrx ▸ h.le
  runs hb := hrx ▸ (h.runs (hrx ▸ hb)).keep hcfg hline

/-- A receive direction that is not in flight: its enables are clear and the status is not Busy. -/
theorem RxSideOk.of_idle {u : InstState} (hctrl : ∀ k ∈ Ctrl.rxEnables, bit u.ctrl k = false)
    (hbusy : u.rx.busy = false) (hstatus : u.rx.status ≠ .busy) (hle : u.rx.progress.toNat ≤ u.rx.len.toNat) :
    RxSideOk u where
  rie := by simp [hctrl Ctrl.rie (by decide)]
  orie := by simp [hctrl Ctrl.orie (by decide)]
  errEq k hk := by rw [hctrl k (by revert k; decide), hctrl Ctrl.orie (by decide)]
  busy h := absurd h hstatus
  status := by simp [hbusy]
  le := hle
  runs := by simp [hbusy]

/-! ## The divisor and the framing INIT programs -/

/-- The search's ratio is one of the candidates 4 to 32 (40_divisor_search.md R142). -/
theorem bestRatio_bounds (clk baud : Nat) : 4 ≤ bestRatio clk baud ∧ bestRatio clk baud ≤ 32 := by
  suffices hfold : ∀ (l : List Nat) (best : Nat), (∀ r ∈ l, 4 ≤ r ∧ r ≤ 32) → 4 ≤ best ∧ best ≤ 32 →
      4 ≤ l.foldl (betterRatio clk baud) best ∧ l.foldl (betterRatio clk baud) best ≤ 32 from
    hfold _ _ (by decide) (by decide)
  intro l
  induction l with
  | nil => exact fun best _ hbest => hbest
  | cons r l ih =>
    intro best hl hbest
    obtain ⟨hr, hl⟩ := List.forall_mem_cons.mp hl
    refine ih _ hl ?_
    rcases betterRatio_cases clk baud best r with ⟨h, -⟩ | ⟨h, -⟩ <;> rw [h] <;> assumption

/-- The ratio is 4 to 32 and the divider 1 to 8191, with the override or without (R141, R142, R144). -/
theorem divisorSearch_bounds (osr16 : Option Nat) (clk baud i : Nat) :
    4 ≤ (divisorSearch osr16 clk baud i).1 ∧ (divisorSearch osr16 clk baud i).1 ≤ 32 ∧
      1 ≤ (divisorSearch osr16 clk baud i).2 ∧ (divisorSearch osr16 clk baud i).2 ≤ 8191 := by
  unfold divisorSearch
  split
  · exact ⟨by norm_num, by norm_num, candidateD_bounds ..⟩
  · exact ⟨(bestRatio_bounds clk baud).1, (bestRatio_bounds clk baud).2, candidateD_bounds ..⟩

/-- BAUD.OSR as ProgramBaud leaves it, one less than the ratio (R145, R146). -/
theorem osr_programBaud (p : Params) (i : Nat) (c : UartConfig) (w : Word) :
    Baud.osr (programBaud p i c w) + 1 = (divisorSearch p.osr16 c.clk.hz c.baud.toNat i).1 := by
  have hbounds := divisorSearch_bounds p.osr16 c.clk.hz c.baud.toNat i
  simp only [programBaud]
  rw [osr_setBothEdge, osr_withSbr, osr_withOsr _ _ (by omega)]
  omega

/-- BAUD.SBR as ProgramBaud leaves it, the divider. -/
theorem sbr_programBaud (p : Params) (i : Nat) (c : UartConfig) (w : Word) :
    Baud.sbr (programBaud p i c w) = (divisorSearch p.osr16 c.clk.hz c.baud.toNat i).2 := by
  have hbounds := divisorSearch_bounds p.osr16 c.clk.hz c.baud.toNat i
  simp only [programBaud]
  rw [sbr_setBothEdge, sbr_withSbr _ _ (by omega)]

/-- BAUD.BOTHEDGE as ProgramBaud leaves it: set for ratios below 8. -/
theorem bothEdge_programBaud (p : Params) (i : Nat) (c : UartConfig) (w : Word) :
    bit (programBaud p i c w) Baud.bothEdge = decide (Baud.osr (programBaud p i c w) + 1 < 8) := by
  rw [osr_programBaud]
  exact bit_setBit_same _ _ _ (by decide)

/-- ProgramBaud writes no reserved bit of BAUD (10_state.md R41). -/
theorem reservedZero_programBaud (p : Params) (i : Nat) (c : UartConfig) {w : Word} (h : ReservedZero Baud.fields w) :
    ReservedZero Baud.fields (programBaud p i c w) := by
  intro k hk hfields
  have hout : ∀ k < 32, bit Baud.fields k = false → k ≠ Baud.bothEdge ∧ ¬ (0 ≤ k ∧ k ≤ 12) ∧ ¬ (24 ≤ k ∧ k ≤ 28) := by
    decide
  obtain ⟨hedge, hsbr, hosr⟩ := hout k hk hfields
  simp only [bit, programBaud, Baud.withSbr, Baud.withOsr]
  rw [getLsbD_setBit _ _ _ _ (by decide), getLsbD_setField _ _ _ _ _ (by decide) (by decide),
    getLsbD_setField _ _ _ _ _ (by decide) (by decide), if_neg hedge, if_neg hsbr, if_neg hosr]
  exact h k hk hfields

/-- The bits of CTRL with the framing of a configuration programmed (41_framing_codec.md R164). -/
theorem bit_withFraming (w : Word) (c : UartConfig) (k : Nat) : bit (withFraming w c) k =
    if k = Ctrl.pt then decide (c.parity = .odd) else if k = Ctrl.pe then decide (c.parity ≠ .disabled)
    else if k = Ctrl.m10 then decide (effw c = 10) else if k = Ctrl.m then decide (effw c = 9)
    else if k = Ctrl.m7 then decide (effw c = 7) else bit w k := by
  simp only [bit, withFraming]
  rw [getLsbD_setBit _ _ _ _ (by decide), getLsbD_setBit _ _ _ _ (by decide), getLsbD_setBit _ _ _ _ (by decide),
    getLsbD_setBit _ _ _ _ (by decide), getLsbD_setBit _ _ _ _ (by decide)]

/-- The effective width of a legal configuration is 7 to 10 (R160). -/
theorem effw_bounds {c : UartConfig} (h : c.width = .w10 → c.parity = .disabled) : 7 ≤ effw c ∧ effw c ≤ 10 := by
  unfold effw
  cases hw : c.width with
  | w10 => simp [Width.bits, h hw]
  | w7 | w8 | w9 => simp only [Width.bits]; split <;> decide

/-- The width read back from CTRL is the one programmed (R164). -/
theorem effwCtrl_withFraming {c : UartConfig} (h : c.width = .w10 → c.parity = .disabled) (w : Word) :
    effwCtrl (withFraming w c) = effw c := by
  have hbounds := effw_bounds h
  have hm7 : bit (withFraming w c) Ctrl.m7 = decide (effw c = 7) := bit_withFraming ..
  have hm : bit (withFraming w c) Ctrl.m = decide (effw c = 9) := bit_withFraming ..
  have hm10 : bit (withFraming w c) Ctrl.m10 = decide (effw c = 10) := bit_withFraming ..
  unfold effwCtrl
  rw [hm7, hm, hm10]
  simp only [decide_eq_true_eq]
  split_ifs <;> omega

/-- What INIT accepts is a legal configuration with a rate (42_configuration_ops.md R182). -/
theorem decodeConfig_legal {arg0 arg1 : Word} {c : UartConfig} (h : decodeConfig arg0 arg1 = some c) :
    (c.width = .w10 → c.parity = .disabled) ∧ c.baud ≠ 0 := by
  unfold decodeConfig at h
  split at h
  · cases h
  split at h
  · cases h
  split at h
  · cases h
  split at h
  · cases h
  dsimp only at h
  split at h
  · cases h
  · cases h
    exact ⟨fun hw => by simp_all, ‹_›⟩

end Sys2Proof.Machine

/-! PROOFS of 10_state.md: every write of an instance keeps its invariant. -/

namespace Sys2Proof.Machine

/-! ## The line side and the data register -/

/-- STAT's flags, the latches, the shift register, the slots and the wire may change as long as TC keeps its meaning and RDR the
effective width. -/
theorem InstOk.writeFlags {p : Params} {i : Nat} {u : InstState} (h : InstOk p i u) {stat : Word} {rdr tdr : Latch}
    {txShift : Option TxFrame} {cb : CallbackSlots} {wire : List TxFrame} (hstat : SameBut Stat.flags u.stat stat)
    (hpipe : PipelineOk { u with stat := stat, txShift := txShift }) (hrdr : rdr.toNat < 2 ^ effwCtrl u.ctrl) :
    InstOk p i { u with stat := stat, rdr := rdr, tdr := tdr, txShift := txShift, cb := cb, wire := wire } where
  regs := h.regs.keep (.refl _ _) hstat rfl rfl hrdr
  pipeline := hpipe
  cfg := h.cfg.keep rfl (.refl _ _) rfl (fun _ hctrl => ⟨hctrl, rfl⟩) .rfl .rfl
  tx := h.tx.keep (fun c hc => ⟨c, hc, rfl⟩) id rfl rfl
  rx := h.rx.keep (fun c hc => ⟨c, hc, rfl⟩) id (fun _ _ => rfl) rfl

/-- RDR holds no bit above the effective width. -/
theorem InstOk.rdr_lt {p : Params} {i : Nat} {u : InstState} (h : InstOk p i u) : u.rdr.toNat < 2 ^ effwCtrl u.ctrl := by
  obtain ⟨-, -, -, -, -, -, -, -, hrdr⟩ := h.regs
  exact hrdr

section
variable {p : Params} {i : Nat} {u : InstState} (h : InstOk p i u)
include h

/-- The callback slots are no part of the invariant. -/
theorem InstOk.withSlots (cb : CallbackSlots) : InstOk p i { u with cb := cb } :=
  h.writeFlags (.refl _ _) h.pipeline h.rdr_lt

/-- A data write empties neither TDR nor the shift register, so TC and TDRE are clear (45_line_side.md R291). -/
theorem InstOk.dataWrite (v : Nat) : InstOk p i (dataWrite u v) := by
  refine h.writeFlags (((SameBut.refl _ _).setBit _ _ (by decide) (by decide)).setBit _ _ (by decide) (by decide)) ?_ h.rdr_lt
  have htc : bit (setBit (setBit u.stat Stat.tdre false) Stat.tc false) Stat.tc = false :=
    bit_setBit_same _ _ _ (by decide)
  have htdre : bit (setBit (setBit u.stat Stat.tdre false) Stat.tc false) Stat.tdre = false := by
    rw [bit_setBit_other _ _ _ _ (by decide) (by decide), bit_setBit_same _ _ _ (by decide)]
  unfold PipelineOk
  rw [htc, htdre]
  simp

/-- A data read clears RDRF alone (R292). -/
theorem InstOk.dataRead : InstOk p i (dataRead u) :=
  have hstat {ks : List Nat} (hks : Stat.rdrf ∈ ks) : SameBut ks u.stat (setBit u.stat Stat.rdrf false) :=
    (SameBut.refl ks _).setBit _ _ hks (by decide)
  h.writeFlags (hstat (by decide)) (h.pipeline.keep (ks := [Stat.rdrf]) (hstat (by decide)) (by decide) rfl) h.rdr_lt

/-- TX_LOAD: TDR is empty again and TC stays clear, since TDRE was (R293). -/
theorem InstOk.txLoaded (henabled : txLoadEnabled u = true) : InstOk p i (txLoaded u) := by
  refine h.writeFlags ((SameBut.refl _ _).setBit _ _ (by decide) (by decide)) ?_ h.rdr_lt
  have htdre : bit u.stat Stat.tdre = false := by
    simp only [txLoadEnabled, Bool.and_eq_true, Bool.not_eq_true'] at henabled
    exact henabled.1.2
  have htc : ¬ bit u.stat Stat.tc = true := fun htc => by
    have := (h.pipeline.mp htc).1
    simp [htdre] at this
  unfold PipelineOk
  rw [bit_setBit_other _ _ _ _ (by decide) (by decide)]
  simp [htc]

/-- TX_SHIFT_DONE: TC is set exactly where TDR is empty (R294). -/
theorem InstOk.txShifted {f : TxFrame} (hframe : u.txShift = some f) : InstOk p i (txShifted f u) := by
  have htc : ¬ bit u.stat Stat.tc = true := fun htc => by
    have := (h.pipeline.mp htc).2
    simp [hframe] at this
  unfold Machine.txShifted
  split
  · next htdre =>
    refine h.writeFlags ((SameBut.refl _ _).setBit _ _ (by decide) (by decide)) ?_ h.rdr_lt
    unfold PipelineOk
    rw [bit_setBit_same _ _ _ (by decide), bit_setBit_other _ _ _ _ (by decide) (by decide)]
    simpa using htdre
  · next htdre =>
    refine h.writeFlags (.refl _ _) ?_ h.rdr_lt
    unfold PipelineOk
    exact iff_of_false htc fun hboth => htdre hboth.1

end

/-- A flag raised or left. -/
theorem SameBut.raiseFlag {ks : List Nat} {w w' : Word} (h : SameBut ks w w') (k : Nat) (b : Bool) (hk : k ∈ ks)
    (hlt : k < 32) : SameBut ks w (Machine.raiseFlag w' k b) := by
  unfold Machine.raiseFlag
  split
  · exact h.setBit k true hk hlt
  · exact h

/-- What RX_FRAME stores fits the effective width (45_line_side.md R296). -/
theorem rxValue_lt (ctrl : Word) (f : RxFrame) : (BitVec.ofNat 10 (rxValue ctrl f)).toNat < 2 ^ effwCtrl ctrl := by
  have hmask : rxValue ctrl f ≤ 2 ^ effwCtrl ctrl - 1 := Nat.and_le_right
  have hcut : (BitVec.ofNat 10 (rxValue ctrl f)).toNat ≤ rxValue ctrl f := by
    rw [BitVec.toNat_ofNat]
    exact Nat.mod_le ..
  have := Nat.two_pow_pos (effwCtrl ctrl)
  omega

/-- RX_FRAME: receive flags and a character within the width (R296). -/
theorem InstOk.rxReceived {p : Params} {i : Nat} {u : InstState} (h : InstOk p i u) (f : RxFrame) :
    InstOk p i (rxReceived f u) := by
  have hkeep {stat : Word} {rdr : Latch} (hstat : SameBut [Stat.pf, Stat.fe, Stat.nf, Stat.or, Stat.rdrf] u.stat stat)
      (hrdr : rdr.toNat < 2 ^ effwCtrl u.ctrl) : InstOk p i { u with stat := stat, rdr := rdr } :=
    h.writeFlags (hstat.mono (by decide)) (h.pipeline.keep hstat (by decide) rfl) hrdr
  rcases rxReceived_cases f u with hcase | hcase | ⟨parity, hcase⟩ <;> rw [hcase]
  · exact h
  · exact hkeep ((SameBut.refl _ _).setBit _ _ (by decide) (by decide)) h.rdr_lt
  · exact hkeep (((((SameBut.refl _ _).setBit _ _ (by decide) (by decide)).raiseFlag _ _ (by decide) (by decide)).raiseFlag
      _ _ (by decide) (by decide)).raiseFlag _ _ (by decide) (by decide)) (rxValue_lt ..)

/-! ## Reset and configuration -/

/-- DEINIT leaves the reset values (42_configuration_ops.md R184). -/
theorem instOk_deinitialized (p : Params) (i : Nat) (u : InstState) : InstOk p i (deinitialized u) where
  regs := (by decide : RegsOk InstState.reset)
  pipeline := (by decide : PipelineOk InstState.reset)
  cfg := ⟨fun _ => ⟨rfl, rfl, rfl, rfl, rfl⟩, nofun⟩
  tx := .of_idle (by decide : bit Ctrl.resetValue Ctrl.tie = false) rfl nofun le_rfl
  rx := .of_idle (by decide : ∀ k ∈ Ctrl.rxEnables, bit Ctrl.resetValue k = false) rfl nofun le_rfl

/-- The power-on values have the invariant: they are what DEINIT leaves (70_reset_and_hazards.md R360). -/
theorem instOk_reset (p : Params) (i : Nat) : InstOk p i .reset := instOk_deinitialized p i .reset

/-- INIT programs no reserved bit of CTRL. -/
theorem reservedZero_withFraming (c : UartConfig) : ReservedZero Ctrl.fields (withFraming Ctrl.resetValue c) := by
  intro k hk hfields
  have hout : ∀ k < 32, bit Ctrl.fields k = false → k ≠ Ctrl.pt ∧ k ≠ Ctrl.pe ∧ k ≠ Ctrl.m10 ∧ k ≠ Ctrl.m ∧ k ≠ Ctrl.m7 ∧
      bit Ctrl.resetValue k = false := by
    decide
  obtain ⟨hpt, hpe, hm10, hm, hm7, hreset⟩ := hout k hk hfields
  rw [bit_withFraming, if_neg hpt, if_neg hpe, if_neg hm10, if_neg hm, if_neg hm7, hreset]

/-- INIT programs at most one width select (10_state.md R39). -/
theorem withFraming_selects (w : Word) (c : UartConfig) :
    (bit (withFraming w c) Ctrl.m7 = true →
      bit (withFraming w c) Ctrl.m = false ∧ bit (withFraming w c) Ctrl.m10 = false) ∧
    (bit (withFraming w c) Ctrl.m = true → bit (withFraming w c) Ctrl.m10 = false) := by
  have hm7 : bit (withFraming w c) Ctrl.m7 = decide (effw c = 7) := bit_withFraming ..
  have hm : bit (withFraming w c) Ctrl.m = decide (effw c = 9) := bit_withFraming ..
  have hm10 : bit (withFraming w c) Ctrl.m10 = decide (effw c = 10) := bit_withFraming ..
  rw [hm7, hm, hm10]
  simp +contextual

/-- INIT leaves every enable clear. -/
theorem enables_withFraming (c : UartConfig) : ∀ k ∈ Ctrl.enables, bit (withFraming Ctrl.resetValue c) k = false := by
  intro k hk
  have hout : ∀ k ∈ Ctrl.enables, k ≠ Ctrl.pt ∧ k ≠ Ctrl.pe ∧ k ≠ Ctrl.m10 ∧ k ≠ Ctrl.m ∧ k ≠ Ctrl.m7 ∧
      bit Ctrl.resetValue k = false := by
    decide
  obtain ⟨hpt, hpe, hm10, hm, hm7, hreset⟩ := hout k hk
  rw [bit_withFraming, if_neg hpt, if_neg hpe, if_neg hm10, if_neg hm, if_neg hm7, hreset]

/-- The layout after a divisor is programmed: OSR and SBR are legal (40_divisor_search.md R147). -/
theorem regsOk_programBaud {p : Params} {i : Nat} {c : UartConfig} {u : InstState} {w : Word}
    (hctrl : ReservedZero Ctrl.fields u.ctrl) (hstat : ReservedZero Stat.fields u.stat) (hw : ReservedZero Baud.fields w)
    (hm7 : bit u.ctrl Ctrl.m7 = true → bit u.ctrl Ctrl.m = false ∧ bit u.ctrl Ctrl.m10 = false)
    (hm : bit u.ctrl Ctrl.m = true → bit u.ctrl Ctrl.m10 = false) (hbaud : u.baud = programBaud p i c w)
    (hmatch : u.matchReg = 0) (hrdr : u.rdr.toNat < 2 ^ effwCtrl u.ctrl) : RegsOk u := by
  have hosr := osr_programBaud p i c w
  have hsbr := sbr_programBaud p i c w
  have hbounds := divisorSearch_bounds p.osr16 c.clk.hz c.baud.toNat i
  refine ⟨hctrl, hstat, hbaud ▸ reservedZero_programBaud p i c hw, hm7, hm, ?_, ?_, hmatch, hrdr⟩ <;> rw [hbaud] <;> omega

/-- The instance INIT leaves (42_configuration_ops.md R182). -/
theorem instOk_configured {p : Params} {i : Nat} {c : UartConfig} (u : InstState)
    (hwidth : c.width = .w10 → c.parity = .disabled) (hrate : c.baud ≠ 0) : InstOk p i (configured p i c u) where
  regs := by
    have hbaud : ReservedZero Baud.fields (setBit Baud.resetValue Baud.sbns (c.stop = .two)) :=
      ReservedZero.sameBut (by decide) ((SameBut.refl [Baud.sbns] _).setBit _ _ (by decide) (by decide)) (by decide)
    exact regsOk_programBaud (reservedZero_withFraming c) (by decide : ReservedZero Stat.fields Stat.resetValue) hbaud
      (withFraming_selects _ c).1 (withFraming_selects _ c).2 rfl rfl (Nat.two_pow_pos _)
  pipeline := (by decide : PipelineOk InstState.reset)
  cfg := by
    refine ⟨nofun, fun d hd => ?_⟩
    obtain rfl : c = d := by simpa [configured] using hd
    exact ⟨hwidth, hrate, effwCtrl_withFraming hwidth _, bit_withFraming .., bit_withFraming ..,
      (sbns_programBaud ..).trans (bit_setBit_same _ _ _ (by decide)),
      Prod.ext (osr_programBaud ..) (sbr_programBaud ..), bothEdge_programBaud .., nofun, nofun⟩
  tx := .of_idle (enables_withFraming c _ (by decide)) rfl nofun le_rfl
  rx := .of_idle (fun k hk => enables_withFraming c k (by revert k; decide)) rfl nofun le_rfl

/-- Clearing a bit leaves CTRL's reset value, which has none set. -/
theorem setBit_reset_false (k : Nat) : setBit Ctrl.resetValue k false = Ctrl.resetValue := by
  simp [setBit, Ctrl.resetValue]

section
variable {p : Params} {i : Nat} {u : InstState} {c : UartConfig} (h : InstOk p i u)
include h

/-- The statuses of an initialized instance are not Uninitialized (10_state.md R51). -/
theorem InstOk.statuses (hcfg : u.cfg = some c) : u.tx.status ≠ .uninitialized ∧ u.rx.status ≠ .uninitialized := by
  obtain ⟨-, -, -, -, -, -, -, -, htx, hrx⟩ := h.cfg.2 c hcfg
  exact ⟨htx, hrx⟩

/-- The instance SETBAUD leaves: the width and the framing stay (R185). -/
theorem InstOk.rebauded (hcfg : u.cfg = some c) {baud : Word} (hrate : baud ≠ 0) :
    InstOk p i (rebauded p i c baud u) where
  regs := by
    obtain ⟨hctrl, hstat, hbaud, hm7, hm, -, -, hmatch, hrdr⟩ := h.regs
    exact regsOk_programBaud hctrl hstat hbaud hm7 hm rfl hmatch hrdr
  pipeline := h.pipeline
  cfg := by
    refine ⟨nofun, fun d hd => ?_⟩
    obtain rfl : { c with baud := baud } = d := by simpa [Machine.rebauded] using hd
    obtain ⟨hwidth, -, heffw, hpe, hpt, hsbns, -, -, htx, hrx⟩ := h.cfg.2 c hcfg
    exact ⟨hwidth, hrate, heffw, hpe, hpt, (sbns_programBaud ..).trans hsbns,
      Prod.ext (osr_programBaud ..) (sbr_programBaud ..), bothEdge_programBaud .., htx, hrx⟩
  tx := h.tx.keep (fun d hd => ⟨c, hcfg, by cases hd; rfl⟩) id rfl rfl
  rx := h.rx.keep (fun d hd => ⟨c, hcfg, by cases hd; rfl⟩) id (fun _ _ => rfl) rfl

/-! ## Enables -/

/-- TE or RE is written; without a configuration it is only cleared, and was clear. -/
theorem InstOk.setEnable {k : Nat} (hk : k ∈ [Ctrl.te, Ctrl.re]) (b : Bool) (hb : u.cfg = none → b = false) :
    InstOk p i (setCtrl u k b) := by
  have hplace : ∀ k ∈ [Ctrl.te, Ctrl.re], k < 32 ∧ k ∈ Ctrl.enables ∧ ∀ j ∈ Ctrl.tie :: Ctrl.rxEnables, j ≠ k := by decide
  obtain ⟨hlt, hmem, hother⟩ := hplace k hk
  have hkeep : ∀ j ∈ Ctrl.tie :: Ctrl.rxEnables, bit (setBit u.ctrl k b) j = bit u.ctrl j :=
    fun j hj => bit_setBit_other _ _ _ _ hlt (hother j hj)
  have hctrl := (SameBut.refl Ctrl.enables u.ctrl).setBit k b hmem hlt
  exact
    { regs := h.regs.keep hctrl (.refl _ _) rfl rfl h.rdr_lt
      pipeline := h.pipeline
      cfg := h.cfg.keep rfl hctrl rfl
        (fun hnone hreset => ⟨by simp only [setCtrl_ctrl, hreset, hb hnone, setBit_reset_false], rfl⟩) .rfl .rfl
      tx := h.tx.keep (fun d hd => ⟨d, hd, rfl⟩) id (hkeep _ List.mem_cons_self) rfl
      rx := h.rx.keep (fun d hd => ⟨d, hd, rfl⟩) id (fun j hj => hkeep j (List.mem_cons_of_mem _ hj)) rfl }

end

end Sys2Proof.Machine

/-! PROOFS of 10_state.md: arming, aborting and serving a transfer keep the invariant of the instance. -/

namespace Sys2Proof.Machine

/-! ## The receive enables -/

/-- The four error enables read as written. -/
theorem bit_withErrorEnables (w : Word) (b : Bool) :
    ∀ k ∈ [Ctrl.orie, Ctrl.neie, Ctrl.feie, Ctrl.peie], bit (withErrorEnables w b) k = b := by
  simp (disch := decide) only [bit, withErrorEnables, getLsbD_setBit]
  simp

/-- RIE and the error enables are clear with the receive path off (43_transfer_ops.md R228). -/
theorem rxEnables_withReceiveOff (w : Word) : ∀ k ∈ Ctrl.rxEnables, bit (withReceiveOff w) k = false := by
  simp (disch := decide) only [bit, withReceiveOff, withErrorEnables, getLsbD_setBit]
  simp [Ctrl.rxEnables]

/-- Clearing the error enables leaves CTRL's reset value. -/
theorem withErrorEnables_reset : withErrorEnables Ctrl.resetValue false = Ctrl.resetValue := by
  simp only [withErrorEnables, setBit_reset_false]

/-- Switching the receive path off leaves CTRL's reset value. -/
theorem withReceiveOff_reset : withReceiveOff Ctrl.resetValue = Ctrl.resetValue := by
  simp only [withReceiveOff, withErrorEnables, setBit_reset_false]

/-- With no receive in flight its enables are clear (10_state.md R37 (b), (e)). -/
theorem RxSideOk.enables_of_idle {u : InstState} (h : RxSideOk u) (hbusy : u.rx.busy = false) :
    ∀ k ∈ Ctrl.rxEnables, bit u.ctrl k = false := by
  have horie : bit u.ctrl Ctrl.orie = false := by simpa [hbusy] using h.orie
  have hrie : bit u.ctrl Ctrl.rie = false := by simpa [hbusy] using h.rie
  have herr (k : Nat) (hk : k ∈ [Ctrl.neie, Ctrl.feie, Ctrl.peie]) : bit u.ctrl k = false := (h.errEq k hk).trans horie
  exact List.forall_mem_cons.mpr ⟨hrie, List.forall_mem_cons.mpr ⟨horie, herr⟩⟩

/-- A progress counter cut to 32 bits is no more than the count. -/
theorem toNat_ofNat_le (n : Nat) : (BitVec.ofNat 32 n).toNat ≤ n := by
  rw [BitVec.toNat_ofNat]
  exact Nat.mod_le ..

section
variable {p : Params} {i : Nat} {u : InstState} {c : UartConfig} (h : InstOk p i u)
include h

/-! ## Transfer commands -/

/-- The instance SEND_ASYNC leaves (R223). -/
theorem InstOk.armedTx (hcfg : u.cfg = some c) {addr len : Word} (hbuf : BufferOk c addr len) :
    InstOk p i (armedTx addr len u) := by
  have hctrl {ks : List Nat} (hte : Ctrl.te ∈ ks) (htie : Ctrl.tie ∈ ks) :
      SameBut ks u.ctrl (setBit (setBit u.ctrl Ctrl.te true) Ctrl.tie true) :=
    ((SameBut.refl ks _).setBit _ _ hte (by decide)).setBit _ _ htie (by decide)
  exact
    { regs := h.regs.keep (hctrl (by decide) (by decide)) (.refl _ _) rfl rfl h.rdr_lt
      pipeline := h.pipeline
      cfg := h.cfg.keep rfl (hctrl (by decide) (by decide)) rfl (fun hnone => by simp [hcfg] at hnone)
        (iff_of_false nofun (h.statuses hcfg).1) .rfl
      tx := ⟨fun _ => rfl, by simp [Machine.armedTx], Nat.zero_le _, fun _ => .arm hcfg hbuf _⟩
      rx := h.rx.keep (fun d hd => ⟨d, hd, rfl⟩) (fun _ => rfl)
        ((hctrl (ks := [Ctrl.te, Ctrl.tie]) (by decide) (by decide)).bits_kept (by decide)) rfl }

/-- The instance RECV_ASYNC leaves (R226). -/
theorem InstOk.armedRx (hcfg : u.cfg = some c) {addr len : Word} (hbuf : BufferOk c addr len) :
    InstOk p i (armedRx addr len u) := by
  have hctrl {ks : List Nat} (herr : [Ctrl.orie, Ctrl.neie, Ctrl.feie, Ctrl.peie] ⊆ ks) (hre : Ctrl.re ∈ ks)
      (hrie : Ctrl.rie ∈ ks) : SameBut ks u.ctrl (Machine.armedRx addr len u).ctrl :=
    (((SameBut.refl ks _).withErrorEnables true herr).setBit _ _ hre (by decide)).setBit _ _ hrie (by decide)
  have herr : ∀ k ∈ [Ctrl.orie, Ctrl.neie, Ctrl.feie, Ctrl.peie], bit (Machine.armedRx addr len u).ctrl k = true := by
    intro k hk
    have hne : ∀ k ∈ [Ctrl.orie, Ctrl.neie, Ctrl.feie, Ctrl.peie], k ≠ Ctrl.rie ∧ k ≠ Ctrl.re := by decide
    exact (bit_setBit_other _ _ _ _ (by decide) (hne k hk).1).trans
      ((bit_setBit_other _ _ _ _ (by decide) (hne k hk).2).trans (bit_withErrorEnables _ _ k hk))
  exact
    { regs := h.regs.keep (hctrl (by decide) (by decide) (by decide)) (.refl _ _) rfl rfl h.rdr_lt
      pipeline := h.pipeline
      cfg := h.cfg.keep rfl (hctrl (by decide) (by decide) (by decide)) rfl (fun hnone => by simp [hcfg] at hnone) .rfl
        (iff_of_false nofun (h.statuses hcfg).2)
      tx := h.tx.keep (fun d hd => ⟨d, hd, rfl⟩) (fun _ => rfl)
        (hctrl (ks := Ctrl.re :: Ctrl.rxEnables) (by decide) (by decide) (by decide) Ctrl.tie (by decide) (by decide)) rfl
      rx := ⟨fun _ => rfl, fun _ => rfl,
        fun k hk => (herr k (List.mem_cons_of_mem _ hk)).trans (herr Ctrl.orie List.mem_cons_self).symm,
        fun _ => rfl, fun _ => ⟨nofun, nofun⟩, Nat.zero_le _, fun _ => .arm hcfg hbuf _⟩ }

/-- A pending receive error is cleared with no receive in flight (R224). -/
theorem InstOk.rxCleared (hbusy : u.rx.busy = false) :
    InstOk p i { u with rx := { u.rx with status := u.rx.status.cleared } } where
  regs := h.regs
  pipeline := h.pipeline
  cfg := h.cfg.keep rfl (.refl _ _) rfl (fun _ hctrl => ⟨hctrl, rfl⟩) .rfl
    (by cases hs : u.rx.status <;> simp [RxStatus.cleared])
  tx := h.tx.keep (fun d hd => ⟨d, hd, rfl⟩) id rfl rfl
  rx := by
    refine .of_idle (h.rx.enables_of_idle hbusy) hbusy ?_ h.rx.le
    have hstatus : u.rx.status ≠ .busy := fun hs => by simpa [hbusy] using h.rx.busy hs
    cases hs : u.rx.status <;> simp_all [RxStatus.cleared]

/-- The instance ABORT_SEND leaves: TC is set exactly where nothing is shifting (R227). -/
theorem InstOk.abortedTx (hcfg : u.cfg = some c) : InstOk p i (abortedTx u) := by
  have hctrl {ks : List Nat} (htie : Ctrl.tie ∈ ks) (hte : Ctrl.te ∈ ks) :
      SameBut ks u.ctrl (Machine.abortedTx u).ctrl :=
    ((SameBut.refl ks _).setBit _ _ htie (by decide)).setBit _ _ hte (by decide)
  refine
    { regs := h.regs.keep (hctrl (by decide) (by decide)) ((sameBut_abortedTx_stat u).mono (by decide)) rfl rfl h.rdr_lt
      pipeline := ?_
      cfg := h.cfg.keep rfl (hctrl (by decide) (by decide)) rfl (fun hnone => by simp [hcfg] at hnone)
        (iff_of_false nofun (h.statuses hcfg).1) .rfl
      tx := .of_idle ?_ rfl nofun le_rfl
      rx := h.rx.keep (fun d hd => ⟨d, hd, rfl⟩) id
        ((hctrl (ks := [Ctrl.tie, Ctrl.te]) (by decide) (by decide)).bits_kept (by decide)) rfl }
  · unfold PipelineOk Machine.abortedTx
    dsimp only
    split
    · next hidle =>
      rw [bit_setBit_same _ _ _ (by decide), bit_setBit_other _ _ _ _ (by decide) (by decide),
        bit_setBit_same _ _ _ (by decide)]
      simp [hidle]
    · next hshift =>
      have htc : ¬ bit u.stat Stat.tc = true := fun htc => hshift (h.pipeline.mp htc).2
      rw [bit_setBit_other _ _ _ _ (by decide) (by decide)]
      exact iff_of_false htc fun hboth => hshift hboth.2
  · exact (bit_setBit_other _ _ _ _ (by decide) (by decide)).trans (bit_setBit_same _ _ _ (by decide))

/-- The instance ABORT_RECV leaves (R228). -/
theorem InstOk.abortedRx (hcfg : u.cfg = some c) : InstOk p i (abortedRx u) := by
  have hctrl := sameBut_withReceiveOff u.ctrl
  have hstat {ks : List Nat} (hks : Stat.rdrf ∈ ks) : SameBut ks u.stat (Machine.abortedRx u).stat :=
    (SameBut.refl ks _).setBit _ _ hks (by decide)
  exact
    { regs := h.regs.keep (hctrl.mono (by decide)) (hstat (by decide)) rfl rfl h.rdr_lt
      pipeline := h.pipeline.keep (ks := [Stat.rdrf]) (hstat (by decide)) (by decide) rfl
      cfg := h.cfg.keep rfl (hctrl.mono (by decide)) rfl (fun hnone => by simp [hcfg] at hnone) .rfl
        (iff_of_false nofun (h.statuses hcfg).2)
      tx := h.tx.keep (fun d hd => ⟨d, hd, rfl⟩) id (hctrl Ctrl.tie (by decide) (by decide)) rfl
      rx := .of_idle (rxEnables_withReceiveOff _) rfl nofun le_rfl }

/-! ## Services of the dispatcher -/

/-- A ready receive is in flight (R37 (b)). -/
theorem InstOk.rx_busy_of_ready (hready : rxReady u = true) : u.rx.busy = true := by
  simp only [rxReady, Bool.and_eq_true] at hready
  exact h.rx.rie hready.2

/-- A ready send is in flight (R37 (a)). -/
theorem InstOk.tx_busy_of_ready (hready : txReady u = true) : u.tx.busy = true := by
  simp only [txReady, Bool.and_eq_true] at hready
  exact h.tx.tie hready.2

/-- A character is received with more to come (44_interrupt_dispatcher.md R263). -/
theorem InstOk.rxServed (hready : rxReady u = true) (hcfg : u.cfg = some c)
    (hmore : u.rx.progress.toNat + stride (effw c) < u.rx.len.toNat) : InstOk p i (rxServed (effw c) u) :=
  have hread := h.dataRead
  { regs := hread.regs
    pipeline := hread.pipeline
    cfg := hread.cfg
    tx := hread.tx.keep (fun d hd => ⟨d, hd, rfl⟩) id rfl rfl
    rx := ⟨h.rx.rie, h.rx.orie, h.rx.errEq, h.rx.busy, h.rx.status, (toNat_ofNat_le _).trans hmore.le,
      fun _ => (h.rx.runs (h.rx_busy_of_ready hready)).advance hcfg hmore⟩ }

/-- The last character is received: the receive path is off and the status is no longer Busy (R263). -/
theorem InstOk.rxCompleted (hlast : u.rx.progress.toNat + stride (effw c) = u.rx.len.toNat) :
    InstOk p i (rxCompleted (Machine.rxServed (effw c) u)) := by
  have hread := h.dataRead
  have hctrl := sameBut_withReceiveOff u.ctrl
  refine
    { regs := hread.regs.keep (hctrl.mono (by decide)) (.refl _ _) rfl rfl hread.rdr_lt
      pipeline := hread.pipeline
      cfg := hread.cfg.keep rfl (hctrl.mono (by decide)) rfl
        (fun _ hreset => ⟨(congrArg withReceiveOff hreset).trans withReceiveOff_reset, rfl⟩) .rfl ?_
      tx := hread.tx.keep (fun d hd => ⟨d, hd, rfl⟩) id (hctrl Ctrl.tie (by decide) (by decide)) rfl
      rx := .of_idle (rxEnables_withReceiveOff _) rfl ?_ ((toNat_ofNat_le _).trans hlast.le) }
  · by_cases hs : u.rx.status = .busy <;> simp [Machine.rxCompleted, Machine.rxServed, hs]
  · by_cases hs : u.rx.status = .busy <;> simp [Machine.rxCompleted, Machine.rxServed, hs]

/-- A character is sent with more to come (R264). -/
theorem InstOk.txServed (hready : txReady u = true) (hcfg : u.cfg = some c) (v : Nat)
    (hmore : u.tx.progress.toNat + stride (effw c) < u.tx.len.toNat) : InstOk p i (txServed (effw c) v u) :=
  have hwrite := h.dataWrite v
  { regs := hwrite.regs
    pipeline := hwrite.pipeline
    cfg := hwrite.cfg
    tx := ⟨h.tx.tie, h.tx.busy_iff, (toNat_ofNat_le _).trans hmore.le,
      fun _ => (h.tx.runs (h.tx_busy_of_ready hready)).advance hcfg hmore⟩
    rx := hwrite.rx.keep (fun d hd => ⟨d, hd, rfl⟩) id (fun _ _ => rfl) rfl }

/-- The last character is sent: TIE is clear and the status Ready (R264). -/
theorem InstOk.txCompleted (hready : txReady u = true) (v : Nat)
    (hlast : u.tx.progress.toNat + stride (effw c) = u.tx.len.toNat) :
    InstOk p i (txCompleted (Machine.txServed (effw c) v u)) := by
  have hwrite := h.dataWrite v
  have hctrl {ks : List Nat} (hks : Ctrl.tie ∈ ks) : SameBut ks u.ctrl (setBit u.ctrl Ctrl.tie false) :=
    (SameBut.refl ks _).setBit _ _ hks (by decide)
  have hbusy : u.tx.status = .busy := h.tx.busy_iff.mp (h.tx_busy_of_ready hready)
  exact
    { regs := hwrite.regs.keep (hctrl (by decide)) (.refl _ _) rfl rfl hwrite.rdr_lt
      pipeline := hwrite.pipeline
      cfg := hwrite.cfg.keep rfl (hctrl (by decide)) rfl
        (fun _ hreset => ⟨(congrArg (setBit · Ctrl.tie false) hreset).trans (setBit_reset_false _), rfl⟩)
        (iff_of_false nofun (by simp [hbusy])) .rfl
      tx := .of_idle (bit_setBit_same _ _ _ (by decide)) rfl nofun ((toNat_ofNat_le _).trans hlast.le)
      rx := hwrite.rx.keep (fun d hd => ⟨d, hd, rfl⟩) id
        ((hctrl (ks := [Ctrl.tie]) (by decide)).bits_kept (by decide)) rfl }

/-- An error is reported: the error enables are clear and a receive in flight records it (R265). -/
theorem InstOk.errServed (k : ErrKind) : InstOk p i (errServed k u) := by
  have hctrl {ks : List Nat} (hks : [Ctrl.orie, Ctrl.neie, Ctrl.feie, Ctrl.peie] ⊆ ks) :
      SameBut ks u.ctrl (withErrorEnables u.ctrl false) := (SameBut.refl ks _).withErrorEnables false hks
  have hstat {ks : List Nat} (hks : [Stat.pf, Stat.fe, Stat.nf, Stat.or] ⊆ ks) :
      SameBut ks u.stat (clearErrorFlags u).stat :=
    ((((SameBut.refl ks _).setBit _ _ (hks (by decide)) (by decide)).setBit _ _ (hks (by decide)) (by decide)).setBit _ _
      (hks (by decide)) (by decide)).setBit _ _ (hks (by decide)) (by decide)
  have herr := bit_withErrorEnables u.ctrl false
  have hrie : bit (withErrorEnables u.ctrl false) Ctrl.rie = bit u.ctrl Ctrl.rie :=
    hctrl (List.Subset.refl _) _ (by decide) (by decide)
  refine
    { regs := h.regs.keep (hctrl (by decide)) (hstat (by decide)) rfl rfl h.rdr_lt
      pipeline := h.pipeline.keep (hstat (List.Subset.refl _)) (by decide) rfl
      cfg := h.cfg.keep rfl (hctrl (by decide)) rfl
        (fun _ hreset => ⟨(congrArg (withErrorEnables · false) hreset).trans withErrorEnables_reset, rfl⟩) .rfl ?_
      tx := h.tx.keep (fun d hd => ⟨d, hd, rfl⟩) id (hctrl (List.Subset.refl _) _ (by decide) (by decide)) rfl
      rx := ?_ }
  · unfold Machine.errServed
    split
    · next hbusy => exact iff_of_false nofun (h.rx.status hbusy).1
    · exact .rfl
  · have horie : ¬ bit (Machine.errServed k u).ctrl Ctrl.orie = true :=
      fun ho => nomatch ho.symm.trans (herr Ctrl.orie List.mem_cons_self)
    have herrEq : ∀ k' ∈ [Ctrl.neie, Ctrl.feie, Ctrl.peie],
        bit (Machine.errServed k u).ctrl k' = bit (Machine.errServed k u).ctrl Ctrl.orie :=
      fun k' hk' => (herr k' (List.mem_cons_of_mem _ hk')).trans (herr Ctrl.orie List.mem_cons_self).symm
    by_cases hbusy : u.rx.busy = true
    · have hrx : (Machine.errServed k u).rx = { u.rx with status := .error k } := if_pos hbusy
      exact
        { rie := fun _ => by rw [hrx]; exact hbusy
          orie := fun ho => absurd ho horie
          errEq := herrEq
          busy := fun _ => by rw [hrx]; exact hbusy
          status := fun _ => by rw [hrx]; exact ⟨nofun, nofun⟩
          le := by rw [hrx]; exact h.rx.le
          runs := fun _ => by rw [hrx]; exact h.rx.runs hbusy }
    · have hrx : (Machine.errServed k u).rx = u.rx := if_neg hbusy
      exact
        { rie := fun hr => absurd (h.rx.rie (hrie ▸ hr)) hbusy
          orie := fun ho => absurd ho horie
          errEq := herrEq
          busy := hrx ▸ h.rx.busy
          status := hrx ▸ h.rx.status
          le := hrx ▸ h.rx.le
          runs := fun hb => absurd (hrx ▸ hb) hbusy }

end

end Sys2Proof.Machine

/-! PROOFS of 10_state.md: every step keeps the invariant of the machine. -/

namespace Sys2Proof.Machine

/-! ## The writes of an instance -/

/-- Every command keeps the invariant of its instance. -/
theorem instOk_of_commandWrites {p : Params} {g g' : FgState} {c : Instr} {u v : InstState} (h : InstOk p c.inst u)
    (hw : CommandWrites p g c u v g') : InstOk p c.inst v := by
  have hcleared {d : UartConfig} (hcfg : u.cfg = some d) : u.cfg = none → true = false := fun hnone => by
    simp [hcfg] at hnone
  cases hw with
  | init hconfig => exact instOk_configured u (decodeConfig_legal hconfig).1 (decodeConfig_legal hconfig).2
  | deinit => exact instOk_deinitialized p _ u
  | setbaud hcfg hbaud => exact h.rebauded hcfg hbaud
  | txEnable hcfg | rxEnable hcfg | sendBlocking hcfg => exact h.setEnable (by decide) true (hcleared hcfg)
  | txDisable | rxDisable => exact h.setEnable (by decide) false fun _ => rfl
  | regCallback | regErrCallback => exact h.withSlots _
  | sendAsync hcfg hbuf => exact h.armedTx hcfg hbuf
  | recvBlocking hcfg hbuf hidle =>
    exact (h.setEnable (k := Ctrl.re) (by decide) true (hcleared hcfg)).rxCleared (Bool.or_eq_false_iff.mp hidle).1
  | recvAsync hcfg hbuf => exact h.armedRx hcfg hbuf
  | abortSend hcfg => exact h.abortedTx hcfg
  | abortRecv hcfg => exact h.abortedRx hcfg

/-- FG's loop keeps the invariant of its instance. -/
theorem instOk_of_loopWrites {p : Params} {i : Nat} {g g' : FgState} {u v : InstState} (h : InstOk p i u)
    (hw : LoopWrites i g u v g') : InstOk p i v := by
  cases hw with
  | sendData => exact h.dataWrite _
  | sendNext => exact h
  | sendEnd => exact h.setEnable (by decide) false fun _ => rfl
  | recvNext => exact h.dataRead
  | recvEnd => exact h.dataRead.setEnable (by decide) false fun _ => rfl

/-- The dispatcher keeps the invariant of its instance. -/
theorem instOk_of_serviceWrites {p : Params} {i : Nat} {u v : InstState} (h : InstOk p i u) (hw : ServiceWrites u v) :
    InstOk p i v := by
  cases hw with
  | rxServed hready hcfg hmore => exact h.rxServed hready hcfg hmore
  | rxCompleted hready hcfg hlast => exact h.rxCompleted hlast
  | txServed hready hcfg hmore => exact h.txServed hready hcfg _ hmore
  | txCompleted hready hcfg hlast => exact h.txCompleted hready _ hlast
  | errServed => exact h.errServed _

/-! ## FG's loop -/

/-- The parameters of a loop in progress are well formed. -/
def FgState.Fits : FgState → Prop
  | .idle => True
  | .sendBlk _ addr len e idx _ => LoopOk addr len e idx
  | .recvBlk _ addr len e idx => LoopOk addr len e idx

/-- FG's loop `g` over the instances `l`: well formed, and the only transfer of its direction on its instance
(43_transfer_ops.md R230). -/
structure FgOk (g : FgState) (l : List InstState) : Prop where
  fits : g.Fits
  sends : ∀ i, g.sendsOn i = true → ∃ u, l[i]? = some u ∧ u.tx.busy = false
  receives : ∀ i, g.receivesOn i = true → ∃ u, l[i]? = some u ∧ u.rx.busy = false

/-- A loop of sending. -/
theorem FgOk.sendBlk {l : List InstState} {i : Nat} {addr len : Word} {e idx : Nat} {phase : Phase} {u : InstState}
    (hfits : LoopOk addr len e idx) (hu : l[i]? = some u) (hidle : u.tx.busy = false) :
    FgOk (.sendBlk i addr len e idx phase) l where
  fits := hfits
  sends j hj := by
    obtain rfl : i = j := by simpa [FgState.sendsOn] using hj
    exact ⟨u, hu, hidle⟩
  receives j hj := by simp [FgState.receivesOn] at hj

/-- A loop of receiving. -/
theorem FgOk.recvBlk {l : List InstState} {i : Nat} {addr len : Word} {e idx : Nat} {u : InstState}
    (hfits : LoopOk addr len e idx) (hu : l[i]? = some u) (hidle : u.rx.busy = false) :
    FgOk (.recvBlk i addr len e idx) l where
  fits := hfits
  sends j hj := by simp [FgState.sendsOn] at hj
  receives j hj := by
    obtain rfl : i = j := by simpa [FgState.receivesOn] using hj
    exact ⟨u, hu, hidle⟩

/-- No loop. -/
theorem FgOk.idle (l : List InstState) : FgOk .idle l :=
  ⟨trivial, fun j hj => by simp [FgState.sendsOn] at hj, fun j hj => by simp [FgState.receivesOn] at hj⟩

/-- The two readings of the invariant of FG agree. -/
theorem fgOk_iff {s : State} : fgOk s = true ↔ FgOk s.fg s.inst := by
  unfold fgOk
  split
  case h_1 hfg => simp [hfg, FgOk.idle]
  case h_2 i addr len e idx phase hfg =>
    rw [hfg, Bool.and_eq_true, decide_eq_true_eq, Option.any_eq_true]
    constructor
    · rintro ⟨hfits, u, hu, hidle⟩
      exact .sendBlk hfits hu (by simpa using hidle)
    · intro h
      obtain ⟨u, hu, hidle⟩ := h.sends i (by simp [FgState.sendsOn])
      exact ⟨h.fits, u, hu, by simp [hidle]⟩
  case h_3 i addr len e idx hfg =>
    rw [hfg, Bool.and_eq_true, decide_eq_true_eq, Option.any_eq_true]
    constructor
    · rintro ⟨hfits, u, hu, hidle⟩
      exact .recvBlk hfits hu (by simpa using hidle)
    · intro h
      obtain ⟨u, hu, hidle⟩ := h.receives i (by simp [FgState.receivesOn])
      exact ⟨h.fits, u, hu, by simp [hidle]⟩

/-- The loop is kept by a write of an instance that starts no transfer of the loop's direction on the loop's instance. -/
theorem FgOk.set {g : FgState} {l : List InstState} (h : FgOk g l) {i : Nat} {u v : InstState} (hu : l[i]? = some u)
    (hsend : g.sendsOn i = true → u.tx.busy = false → v.tx.busy = false)
    (hrecv : g.receivesOn i = true → u.rx.busy = false → v.rx.busy = false) : FgOk g (l.set i v) := by
  have hself : (l.set i v)[i]? = some v := List.getElem?_set_self (List.getElem?_eq_some_iff.mp hu).1
  refine ⟨h.fits, fun j hj => ?_, fun j hj => ?_⟩
  · obtain ⟨w, hw, hidle⟩ := h.sends j hj
    by_cases hij : i = j
    · subst hij
      obtain rfl : u = w := by simpa [hu] using hw
      exact ⟨v, hself, hsend hj hidle⟩
    · exact ⟨w, (List.getElem?_set_ne hij).trans hw, hidle⟩
  · obtain ⟨w, hw, hidle⟩ := h.receives j hj
    by_cases hij : i = j
    · subst hij
      obtain rfl : u = w := by simpa [hu] using hw
      exact ⟨v, hself, hrecv hj hidle⟩
    · exact ⟨w, (List.getElem?_set_ne hij).trans hw, hidle⟩

/-- An accepted blocking transfer starts a well-formed loop (10_state.md R45, 43_transfer_ops.md R220). -/
theorem InstOk.loopOk {p : Params} {i : Nat} {u : InstState} {c : UartConfig} (h : InstOk p i u) (hcfg : u.cfg = some c)
    {addr len : Word} (hbuf : BufferOk c addr len) : LoopOk addr len (effw c) 0 := by
  obtain ⟨hwidth, -⟩ := h.cfg.2 c hcfg
  obtain ⟨hlo, hhi⟩ := effw_bounds hwidth
  obtain ⟨haddr, hlen, hwhole, hwrap⟩ := hbuf
  exact ⟨hlo, hhi, haddr, hwrap, hwhole, Nat.zero_mod _, Nat.pos_of_ne_zero (BitVec.toNat_ne.mp hlen)⟩

/-- A loop with a character done and not the last goes on. -/
theorem loopOk_next {addr len : Word} {e idx : Nat} (h : LoopOk addr len e idx) (hmore : idx + stride e ≠ len.toNat) :
    LoopOk addr len e (idx + stride e) := by
  obtain ⟨hlo, hhi, haddr, hwrap, hwhole, hidx, hlt⟩ := h
  refine ⟨hlo, hhi, haddr, hwrap, hwhole, by rw [Nat.add_mod_right, hidx], ?_⟩
  obtain ⟨m, hm⟩ := Nat.dvd_of_mod_eq_zero hwhole
  obtain ⟨k, hk⟩ := Nat.dvd_of_mod_eq_zero hidx
  have hkm : k < m := by
    rw [hm, hk] at hlt
    exact Nat.lt_of_mul_lt_mul_left hlt
  have hle : stride e * (k + 1) ≤ stride e * m := Nat.mul_le_mul_left _ hkm
  rw [Nat.mul_succ, ← hk, ← hm] at hle
  omega

/-- Every command keeps FG's loop well formed. -/
theorem fgOk_of_commandWrites {p : Params} {g g' : FgState} {l : List InstState} {c : Instr} {u v : InstState}
    (h : FgOk g l) (hu : l[c.inst]? = some u) (hinst : InstOk p c.inst u) (hw : CommandWrites p g c u v g') :
    FgOk g' (l.set c.inst v) := by
  have hself : (l.set c.inst v)[c.inst]? = some v := List.getElem?_set_self (List.getElem?_eq_some_iff.mp hu).1
  cases hw with
  | sendBlocking hcfg hbuf hidle => exact .sendBlk (hinst.loopOk hcfg hbuf) hself (Bool.or_eq_false_iff.mp hidle).1
  | recvBlocking hcfg hbuf hidle => exact .recvBlk (hinst.loopOk hcfg hbuf) hself (Bool.or_eq_false_iff.mp hidle).1
  | sendAsync hcfg hbuf hidle =>
    exact h.set hu (fun hsend => nomatch hsend.symm.trans (Bool.or_eq_false_iff.mp hidle).2) fun _ => id
  | recvAsync hcfg hbuf hidle =>
    exact h.set hu (fun _ => id) fun hrecv => nomatch hrecv.symm.trans (Bool.or_eq_false_iff.mp hidle).2
  | init | deinit => exact h.set hu (fun _ _ => rfl) fun _ _ => rfl
  | abortSend => exact h.set hu (fun _ _ => rfl) fun _ => id
  | abortRecv => exact h.set hu (fun _ => id) fun _ _ => rfl
  | setbaud | txEnable | txDisable | rxEnable | rxDisable | regCallback | regErrCallback =>
    exact h.set hu (fun _ => id) fun _ => id

/-- A step of FG's loop keeps it well formed. -/
theorem fgOk_of_loopWrites {g g' : FgState} {l : List InstState} {i : Nat} {u v : InstState} (h : FgOk g l)
    (hu : l[i]? = some u) (hw : LoopWrites i g u v g') : FgOk g' (l.set i v) := by
  have hself : (l.set i v)[i]? = some v := List.getElem?_set_self (List.getElem?_eq_some_iff.mp hu).1
  have hsends (hon : g.sendsOn i = true) : u.tx.busy = false := by
    obtain ⟨w, hw, hidle⟩ := h.sends i hon
    simp_all
  have hreceives (hon : g.receivesOn i = true) : u.rx.busy = false := by
    obtain ⟨w, hw, hidle⟩ := h.receives i hon
    simp_all
  cases hw with
  | sendData => exact .sendBlk h.fits hself (hsends (by simp [FgState.sendsOn]))
  | sendNext hmore => exact .sendBlk (loopOk_next h.fits hmore) hself (hsends (by simp [FgState.sendsOn]))
  | recvNext hmore => exact .recvBlk (loopOk_next h.fits hmore) hself (hreceives (by simp [FgState.receivesOn]))
  | sendEnd | recvEnd => exact .idle _

/-- A service starts no transfer. -/
theorem serviceWrites_idle {u v : InstState} (h : ServiceWrites u v) :
    (u.tx.busy = false → v.tx.busy = false) ∧ (u.rx.busy = false → v.rx.busy = false) := by
  cases h with
  | rxServed | txServed => exact ⟨id, id⟩
  | rxCompleted => exact ⟨id, fun _ => rfl⟩
  | txCompleted => exact ⟨fun _ => rfl, id⟩
  | errServed =>
    refine ⟨id, fun hidle => ?_⟩
    simp [errServed, hidle]

/-! ## The machine -/

/-- A running handler keeps belonging to an instance. -/
theorem icOk_of_ic {s t : State} (h : icOk s = true) (hlength : t.inst.length = s.inst.length)
    (hic : t.ic = s.ic ∨ ∃ i ev pending, t.ic = .active i ev pending ∧ i < s.inst.length) : icOk t = true := by
  unfold icOk at h ⊢
  rcases hic with hic | ⟨i, ev, pending, hic, hi⟩
  · rw [hic, hlength]
    exact h
  · simp only [hic, hlength, decide_eq_true_eq]
    exact hi

/-- The invariant of the instance at `i`. -/
theorem State.Inv.instOk {s : State} (h : s.Inv) {i : Nat} {u : InstState} (hu : s.inst[i]? = some u) :
    InstOk s.params i u := by
  obtain ⟨-, -, -, -, hinst, -, -⟩ := h
  exact instOk_iff.mp (hinst i (List.getElem?_eq_some_iff.mp hu).1 u hu)

/-- The invariant of FG's loop. -/
theorem State.Inv.fgOk {s : State} (h : s.Inv) : FgOk s.fg s.inst := by
  obtain ⟨-, -, -, -, -, hfg, -⟩ := h
  exact fgOk_iff.mp hfg

/-- A state that differs in one instance, FG's loop, the handler, memory and the logs has the invariant if these parts do. -/
theorem State.Inv.write {s t : State} (h : s.Inv) {i : Nat} {u v : InstState} (hu : s.inst[i]? = some u)
    (hinst : t.inst = s.inst.set i v) (hparams : t.params = s.params) (hv : InstOk s.params i v)
    (hmem : Memory.wf s.mem → Memory.wf t.mem) (hfg : FgOk t.fg t.inst)
    (hic : t.ic = s.ic ∨ ∃ ev pending, t.ic = .active i ev pending) : t.Inv := by
  obtain ⟨hlo, hhi, hwf, hmem0, hall, -, hic0⟩ := h
  have hlength : t.inst.length = s.inst.length := by simp [hinst]
  have hi : i < s.inst.length := (List.getElem?_eq_some_iff.mp hu).1
  refine ⟨hlength ▸ hlo, hlength ▸ hhi, by rw [hparams, hlength]; exact hwf, hmem hmem0, fun j hj w hw => ?_,
    fgOk_iff.mpr hfg, icOk_of_ic hic0 hlength (hic.imp id fun ⟨ev, pending, hic⟩ => ⟨i, ev, pending, hic, hi⟩)⟩
  rw [hparams]
  by_cases hij : i = j
  · subst hij
    obtain rfl : v = w := by
      rw [hinst, List.getElem?_set_self hi] at hw
      exact Option.some.inj hw
    exact instOk_iff.mpr hv
  · rw [hinst, List.getElem?_set_ne hij] at hw
    exact hall j (hlength ▸ hj) w hw

/-- A line-side event: one instance is written and no transfer starts. -/
theorem State.Inv.setInst {s : State} (h : s.Inv) {i : Nat} {u v : InstState} (hu : s.inst[i]? = some u)
    (hv : InstOk s.params i v) (htx : v.tx = u.tx) (hrx : v.rx = u.rx) : (s.setInst i v).Inv :=
  h.write hu rfl rfl hv id (h.fgOk.set hu (fun _ hidle => htx ▸ hidle) fun _ hidle => hrx ▸ hidle) (.inl rfl)

/-- Another running handler of the same instance, or none. -/
theorem State.Inv.withIc {s : State} (h : s.Inv) {ic : IcState}
    (hic : ic = .none ∨ ∃ i ev pending ev' pending', s.ic = .active i ev pending ∧ ic = .active i ev' pending') :
    State.Inv { s with ic := ic } := by
  obtain ⟨hlo, hhi, hwf, hmem, hall, hfg, hic0⟩ := h
  refine ⟨hlo, hhi, hwf, hmem, hall, hfg, ?_⟩
  rcases hic with rfl | ⟨i, ev, pending, ev', pending', hs, rfl⟩
  · rfl
  · simpa [icOk, hs] using hic0

/-- Every command keeps the invariant. -/
theorem exec_inv {c : Instr} {s t : State} (h : s.Inv) (hexec : exec c s = .next t) : t.Inv := by
  cases exec_outcome hexec with
  | logs l fs => exact h
  | writes hu hw l =>
    exact h.write hu rfl rfl (instOk_of_commandWrites (h.instOk hu) hw) id
      (fgOk_of_commandWrites h.fgOk hu (h.instOk hu) hw) (.inl rfl)

/-- Delivering a packet keeps the invariant. -/
theorem runPacket_inv {p : Packet} {s t : State} (h : s.Inv) (hrun : runPacket p s = .next t) : t.Inv := by
  rcases runPacket_next hrun with ⟨c, -, hexec⟩ | rfl
  · exact exec_inv h hexec
  · exact h

/-- Every event keeps the invariant. -/
theorem offer_inv {ev : Event} {s t : State} (h : s.Inv) (hoffer : offer ev s = some (.next t)) : t.Inv := by
  cases ev with
  | command p => exact runPacket_inv h (offer_command_next hoffer).2
  | interrupt =>
    rcases interruptStep_next hoffer with ⟨i, ev, p, rest, hic, hrun⟩ | rfl
    · exact runPacket_inv (h.withIc (.inr ⟨i, ev, _, ev, rest, hic, rfl⟩)) hrun
    · exact h.withIc (.inl rfl)
  | foreground =>
    cases foregroundStep_outcome (eq_some_of_map_next hoffer) with
    | writes hu hw hm l =>
      exact h.write hu rfl rfl (instOk_of_loopWrites (h.instOk hu) hw) hm (fgOk_of_loopWrites h.fgOk hu hw) (.inl rfl)
  | dispatch i =>
    cases dispatchStep_outcome (eq_some_of_map_next hoffer) with
    | broken => exact h
    | writes hu hw hic hm l =>
      obtain ⟨htx, hrx⟩ := serviceWrites_idle hw
      exact h.write hu rfl rfl (instOk_of_serviceWrites (h.instOk hu) hw) hm (h.fgOk.set hu (fun _ => htx) fun _ => hrx) hic
  | txLoad i =>
    obtain ⟨u, hu, henabled, rfl⟩ := txLoadStep_next (eq_some_of_map_next hoffer)
    exact h.setInst hu ((h.instOk hu).txLoaded henabled) rfl rfl
  | txShiftDone i =>
    obtain ⟨u, f, hu, hframe, rfl⟩ := txShiftDoneStep_next (eq_some_of_map_next hoffer)
    exact h.setInst hu ((h.instOk hu).txShifted hframe) rfl rfl
  | rxFrame i f =>
    obtain ⟨u, hu, rfl⟩ := rxFrameStep_next (eq_some_of_map_next hoffer)
    exact h.setInst hu ((h.instOk hu).rxReceived f) (by rw [rxReceived_eq]) (by rw [rxReceived_eq])
  | hostWrite a v =>
    cases hoffer
    obtain ⟨hlo, hhi, hwf, hmem, hrest⟩ := h
    exact ⟨hlo, hhi, hwf, Memory.wf_write hmem a.isLt v, hrest⟩

/-- Settles O51: an idle step and a lapsed entry change no part of the invariant, and every event keeps it. -/
theorem everyStepKeepsInvariant : Obligations.EveryStepKeepsInvariant := by
  intro s t h hstep
  obtain ⟨-, ⟨-, rfl⟩ | ⟨ev, rest, -, hadvance⟩⟩ := step_next hstep
  · exact h
  · have hmoved : State.Inv { s with agenda := rest } := h
    rcases advance_next hadvance with hoffer | ⟨-, rfl⟩
    · exact offer_inv hmoved hoffer
    · exact hmoved

/-! ## Power-on -/

/-- Settles O49: every instance has its power-on values, FG is idle and no handler runs. -/
theorem powerOnHasInvariant : Obligations.PowerOnHasInvariant := by
  intro n p mem hlo hhi hwf hmem
  have hlength : (State.powerOn n p mem).inst.length = n := List.length_replicate
  refine ⟨hlength.symm ▸ hlo, hlength.symm ▸ hhi, hlength.symm ▸ hwf, hmem, fun i hi u hu => ?_, rfl, rfl⟩
  obtain rfl : u = .reset := List.eq_of_mem_replicate (List.mem_of_getElem? hu)
  exact instOk_iff.mpr (instOk_reset p i)

/-- Settles O50: State.reset is the power-on state of three instances, the default parameters and empty memory. -/
theorem resetHasInvariant : Obligations.ResetHasInvariant :=
  powerOnHasInvariant 3 .default [] (by decide) (by decide) (by decide) (by decide)

end Sys2Proof.Machine

/-! PROOFS of 20_memory.md: the host's writes. -/

namespace Sys2Proof.Machine

/-- The bytes of a state in which the byte at `a` was made `v`. -/
theorem State.byteAt_withWrite {s : State} (hm : Memory.wf s.mem) (a : Nat) (v : Byte) (x : Nat) :
    State.byteAt { s with mem := Memory.write s.mem a v } x = if x = a then v else s.byteAt x :=
  Memory.read_write hm a v x

/-- With no fault recorded, a host write takes the state to the one with that byte written, admitted or not. -/
theorem takes_hostWrite {s : State} (hfaults : s.faults = []) (a : Word) (v : Byte) :
    Takes s (.hostWrite a v) { s with mem := Memory.write s.mem a.toNat v } :=
  ⟨hfaults, rfl⟩

/-- Settles O19: the transition is one memory write at a 32-bit address, which changes that byte and keeps the canonical form. -/
theorem hostWriteChangesOneByte : Obligations.HostWriteChangesOneByte := by
  intro s a v hfaults hm
  refine ⟨_, takes_hostWrite hfaults a v, ?written, fun x hx => ?kept, Memory.wf_write hm a.isLt v, rfl⟩
  case written => rw [State.byteAt_withWrite hm, if_pos rfl]
  case kept => rw [State.byteAt_withWrite hm, if_neg hx]

end Sys2Proof.Machine

/-! PROOFS of 30_encoding.md: the decoder and the encoder. -/

namespace Sys2Proof

/-! ## Decoding -/

/-- The callback kind a command carries; a command other than REG_CALLBACK has KIND 0, which reads as the error kind. -/
def Instr.kind : Instr → SlotKind
  | .regCallback _ kind _ => kind
  | _ => .error

/-- The KIND field of a command's word is the number of its kind. -/
theorem Instr.code_kind (c : Instr) : c.kind.code = c.kindCode := by cases c <;> rfl

/-- Only REG_CALLBACK has a KIND other than 0 (R119 (c)). -/
theorem Instr.op_of_kindCode_ne_zero {c : Instr} (h : c.kindCode ≠ 0) : c.op = .regCallback := by
  cases c with
  | regCallback i kind handle => rfl
  | _ => exact absurd rfl h

/-- A KIND code fits its two bits. -/
theorem SlotKind.code_lt (k : SlotKind) : k.code < 4 := by cases k <;> decide

/-- A command is built of its own opcode, instance, kind and the operand words of its packet (R117). -/
theorem Instr.build_encode (c : Instr) : c.op.build c.inst c.kind (encode c).w1 (encode c).w2 = c := by cases c <;> rfl

/-- The legal packets and what they decode to: the four checks of R119 passed. -/
theorem decode_eq_ok_iff {p : Packet} {c : Instr} :
    decode p = .ok c ↔ ∃ op kind, Op.ofCode (slice p.w0 7 0) = some op ∧ slice p.w0 31 14 = 0 ∧
      (slice p.w0 13 12 ≠ 0 → op = .regCallback) ∧ SlotKind.ofCode (slice p.w0 13 12) = some kind ∧
      op.build (slice p.w0 11 8) kind p.w1 p.w2 = c := by
  unfold decode
  constructor
  · intro h
    split at h
    · cases h
    next op hop =>
      split at h
      · cases h
      split at h
      · cases h
      split at h
      · cases h
      next hrsv huse _ kind hkind =>
        cases h
        exact ⟨op, kind, hop, by simpa using hrsv, by simpa using huse, hkind, rfl⟩
  · rintro ⟨op, kind, hop, hrsv, huse, hkind, rfl⟩
    have huse : ¬ (slice p.w0 13 12 ≠ 0 ∧ op ≠ .regCallback) := fun ⟨hne, hop⟩ => hop (huse hne)
    simp [hop, hrsv, huse, hkind]

/-- Settles O1: the fields of the encoder's command word pass the decoder's checks, and the operands are read back. -/
theorem decodeOfEncode : Obligations.DecodeOfEncode := by
  intro c hc
  have hkind : slice (encode c).w0 13 12 = c.kindCode := by
    rw [encode_w0, Instr.w0, slice_commandWord_kind, ← c.code_kind]
    exact Nat.mod_eq_of_lt c.kind.code_lt
  have hinst : slice (encode c).w0 11 8 = c.inst := by
    rw [encode_w0, Instr.w0, slice_commandWord_inst]
    exact Nat.mod_eq_of_lt hc
  obtain ⟨hrsv, hopc⟩ := Laws.ReservedZero.of_commandWord c
  refine decode_eq_ok_iff.mpr ⟨c.op, c.kind, ?_, hrsv, ?_, ?_, ?_⟩
  · rw [hopc, Op.ofCode_code]
  · rw [hkind]
    exact Instr.op_of_kindCode_ne_zero
  · rw [hkind, ← c.code_kind, SlotKind.ofCode_code]
  · rw [hinst, c.build_encode]

/-- The four fields of a command word make up the word. -/
theorem toNat_eq_fields (w : Word) :
    w.toNat = slice w 7 0 + slice w 11 8 * 2 ^ 8 + slice w 13 12 * 2 ^ 12 + slice w 31 14 * 2 ^ 14 := by
  have := w.isLt
  simp only [slice, Nat.shiftRight_eq_div_pow]
  omega

/-- The opcode of a built command. -/
@[simp] theorem Op.build_op (op : Op) (i : Nat) (kind : SlotKind) (w1 w2 : Word) : (op.build i kind w1 w2).op = op := by
  cases op <;> rfl

/-- The instance of a built command. -/
@[simp] theorem Op.build_inst (op : Op) (i : Nat) (kind : SlotKind) (w1 w2 : Word) :
    (op.build i kind w1 w2).inst = i := by
  cases op <;> rfl

/-- A built command keeps the kind if it is a REG_CALLBACK, and has KIND 0 otherwise. -/
theorem Op.build_kindCode (op : Op) (i : Nat) (kind : SlotKind) (w1 w2 : Word) :
    (op.build i kind w1 w2).kindCode = if op = .regCallback then kind.code else 0 := by
  cases op <;> rfl

open Machine in
/-- The encoder gives back the operand words a built command reads (R117). -/
theorem encode_build_operands (op : Op) (i : Nat) (kind : SlotKind) (w1 w2 : Word) :
    (readsArg0 (op.build i kind w1 w2) = true → (encode (op.build i kind w1 w2)).w1 = w1) ∧
      (readsArg1 (op.build i kind w1 w2) = true → (encode (op.build i kind w1 w2)).w2 = w2) := by
  cases op <;> simp [Op.build, encode, readsArg0, readsArg1, Instr.op]

/-- Settles O2: a legal word is the sum of its fields, and each is kept by the command it decodes to. -/
theorem encodeOfDecode : Obligations.EncodeOfDecode := by
  intro p c hc
  obtain ⟨op, kind, hop, hrsv, huse, hkind, rfl⟩ := decode_eq_ok_iff.mp hc
  have hinst : slice p.w0 11 8 < 16 := Nat.mod_lt _ (by decide)
  refine ⟨by simpa [WellFormed] using hinst, ?_, encode_build_operands ..⟩
  have hopc := Op.code_of_ofCode hop
  have hcode := SlotKind.code_of_ofCode hkind
  have hkeep : (op.build (slice p.w0 11 8) kind p.w1 p.w2).kindCode = slice p.w0 13 12 := by
    rw [Op.build_kindCode, hcode]
    split
    · rfl
    · by_contra hne
      exact ‹op ≠ _› (huse (Ne.symm hne))
  apply BitVec.eq_of_toNat_eq
  rw [encode_w0, Instr.w0, toNat_commandWord, hkeep, toNat_eq_fields p.w0, Op.build_op, Op.build_inst, hopc, hrsv,
    Nat.mod_eq_of_lt hinst, Nat.mod_eq_of_lt (hcode ▸ kind.code_lt), Nat.zero_mul, Nat.add_zero]

/-! ## Illegal packets -/

/-- The numbers of the opcode table (R118). -/
def Op.codes : List Nat :=
  [0x01, 0x02, 0x03, 0x10, 0x11, 0x12, 0x13, 0x14, 0x15, 0x20, 0x21, 0x22, 0x23, 0x30, 0x31, 0x40, 0x41]

/-- The opcode table lists exactly the numbers that read as an opcode. -/
theorem Op.mem_codes_iff {n : Nat} : n ∈ Op.codes ↔ ∃ op, Op.ofCode n = some op := by
  constructor
  · have hall : ∀ m ∈ Op.codes, (Op.ofCode m).isSome = true := by decide
    exact fun h => Option.isSome_iff_exists.mp (hall n h)
  · rintro ⟨op, hop⟩
    rw [← Op.code_of_ofCode hop]
    cases op <;> decide

/-- Of the four values of KIND, 3 alone is reserved. -/
theorem SlotKind.exists_ofCode_iff {n : Nat} (h : n < 4) : (∃ kind, SlotKind.ofCode n = some kind) ↔ n ≠ 3 := by
  interval_cases n <;> simp [SlotKind.ofCode]

/-- REG_CALLBACK's number is read as no other opcode. -/
theorem Op.eq_regCallback_iff {n : Nat} {op : Op} (h : Op.ofCode n = some op) : op = .regCallback ↔ n = 0x30 := by
  rw [← Op.code_of_ofCode h]
  cases op <;> decide

/-- The legal packets in terms of their fields alone: none of (a) to (d) of R119. -/
theorem exists_decode_iff {p : Packet} :
    (∃ c, decode p = .ok c) ↔ slice p.w0 7 0 ∈ Op.codes ∧ slice p.w0 31 14 = 0 ∧
      (slice p.w0 13 12 ≠ 0 → slice p.w0 7 0 = 0x30) ∧ slice p.w0 13 12 ≠ 3 := by
  have hlt : slice p.w0 13 12 < 4 := Nat.mod_lt _ (by decide)
  rw [Op.mem_codes_iff, ← SlotKind.exists_ofCode_iff hlt]
  constructor
  · rintro ⟨c, hc⟩
    obtain ⟨op, kind, hop, hrsv, huse, hkind, -⟩ := decode_eq_ok_iff.mp hc
    exact ⟨⟨op, hop⟩, hrsv, fun hne => (Op.eq_regCallback_iff hop).mp (huse hne), kind, hkind⟩
  · rintro ⟨⟨op, hop⟩, hrsv, huse, kind, hkind⟩
    exact ⟨_, decode_eq_ok_iff.mpr
      ⟨op, kind, hop, hrsv, fun hne => (Op.eq_regCallback_iff hop).mpr (huse hne), hkind, rfl⟩⟩

/-- A packet is illegal where it decodes to no command. -/
theorem exists_error_iff {p : Packet} : (∃ e, decode p = .error e) ↔ ¬ ∃ c, decode p = .ok c := by
  cases decode p <;> simp

namespace Machine

/-- Delivering a legal packet executes its command. -/
theorem runPacket_of_ok {p : Packet} {c : Instr} (h : decode p = .ok c) (s : State) : runPacket p s = exec c s := by
  simp only [runPacket, h]

/-- Delivering an illegal packet logs InvalidArgument with no status and no OUT1, and does nothing else (R119). -/
theorem runPacket_of_error {p : Packet} (h : ∃ e, decode p = .error e) (s : State) :
    runPacket p s = .next { s with trace := s.trace ++ [.result s.ctx p.w0 ⟨2, 0⟩] } := by
  obtain ⟨e, he⟩ := h
  simp only [runPacket, he]
  rfl

end Machine

open Machine

/-- Settles O3: the legality of a packet in terms of its fields, negated; and the two deliveries. -/
theorem illegalPacketsAnswerInvalidArgument : Obligations.IllegalPacketsAnswerInvalidArgument := by
  intro p
  refine ⟨?_, runPacket_of_error, fun c hc => ?_⟩
  · have hthree : slice p.w0 13 12 = 3 → slice p.w0 13 12 ≠ 0 := by omega
    rw [exists_error_iff, exists_decode_iff, ← Op.codes]
    tauto
  · obtain ⟨op, kind, hop, -, -, -, rfl⟩ := decode_eq_ok_iff.mp hc
    exact ⟨by rw [Op.build_op, Op.code_of_ofCode hop], Op.build_inst .., runPacket_of_ok hc⟩

end Sys2Proof

/-! PROOFS of 30_encoding.md: the configuration word. -/

namespace Sys2Proof.Machine

/-! ## The fields of the configuration word -/

/-- A bit as the slice it makes alone. -/
theorem bit_eq_slice (w : Word) (k : Nat) : bit w k = decide (slice w k k = 1) := by
  simp [bit, slice, BitVec.getLsbD, Nat.testBit_eq_decide_div_mod_eq, Nat.shiftRight_eq_div_pow]

/-- WCODE of a width. -/
def Width.code : Width → Nat
  | .w7 => 0
  | .w8 => 1
  | .w9 => 2
  | .w10 => 3

/-- PCODE of a parity. -/
def Parity.code : Parity → Nat
  | .disabled => 0
  | .even => 1
  | .odd => 2

/-- SCODE of the stop bits. -/
def StopBits.code : StopBits → Nat
  | .one => 0
  | .two => 1

/-- CCODE of a clock. -/
def Clock.code : Clock → Nat
  | .slow => 0
  | .fast => 1

/-! The codes of R116's table: their ranges, and what each part reads as. -/

theorem Width.bits_eq (w : Width) : w.bits = 7 + w.code := by cases w <;> rfl
theorem Width.code_lt (w : Width) : w.code < 4 := by cases w <;> decide
theorem Parity.code_lt (p : Parity) : p.code < 3 := by cases p <;> decide
theorem StopBits.code_lt (t : StopBits) : t.code < 2 := by cases t <;> decide
theorem Clock.code_lt (c : Clock) : c.code < 2 := by cases c <;> decide
theorem StopBits.code_eq_one_iff {t : StopBits} : t.code = 1 ↔ t = .two := by cases t <;> decide
theorem Clock.code_eq_one_iff {c : Clock} : c.code = 1 ↔ c = .fast := by cases c <;> decide

/-- The parity and its code, as the table of R116 pairs them. -/
theorem Parity.code_eq_iff (p : Parity) (n : Nat) :
    p.code = n ↔ p = .disabled ∧ n = 0 ∨ p = .even ∧ n = 1 ∨ p = .odd ∧ n = 2 := by
  cases p <;> simp [Parity.code, eq_comm]

/-- A two-bit WCODE reads as the width it codes. -/
theorem Width.ofCode_eq_iff {n : Nat} (h : n < 4) (w : Width) : Width.ofCode n = w ↔ w.bits = 7 + n := by
  interval_cases n <;> cases w <;> decide

/-- Bit 4 reads as the stop bits it codes. -/
theorem StopBits.ofBit_eq_iff (b : Bool) (t : StopBits) : (if b then .two else .one) = t ↔ b = decide (t = .two) := by
  cases b <;> cases t <;> decide

/-- Bit 5 reads as the clock it codes. -/
theorem Clock.ofBit_eq_iff (b : Bool) (c : Clock) : (if b then .fast else .slow) = c ↔ b = decide (c = .fast) := by
  cases b <;> cases c <;> decide

/-- PCODE reads as the parity it codes, and 3 as none. -/
theorem Parity.ofCode_eq_some_iff {n : Nat} {p : Parity} : Parity.ofCode n = some p ↔ p.code = n := by
  constructor
  · intro h
    unfold Parity.ofCode at h
    split at h <;> cases h <;> rfl
  · rintro rfl
    cases p <;> rfl

/-- The configuration word as the sum of its fields (R116). -/
theorem configWord_eq (c : UartConfig) : configWord c =
    BitVec.ofNat 32 (c.width.code + c.parity.code * 2 ^ 2 + c.stop.code * 2 ^ 4 + c.clk.code * 2 ^ 5 + 2 ^ 31) := rfl

/-- The configuration the fields of INIT's operands name, with the parity PCODE reads as. -/
def configOf (arg0 arg1 : Word) (parity : Parity) : UartConfig where
  width := Width.ofCode (slice arg0 1 0)
  parity := parity
  stop := if bit arg0 4 then .two else .one
  baud := arg1
  clk := if bit arg0 5 then .fast else .slow

/-- What INIT accepts: the checks of 42_configuration_ops.md R182 passed, and the configuration of the fields. -/
theorem decodeConfig_eq_some_iff {arg0 arg1 : Word} {c : UartConfig} :
    decodeConfig arg0 arg1 = some c ↔ bit arg0 31 = true ∧ slice arg0 30 6 = 0 ∧ arg1 ≠ 0 ∧
      ¬ (c.width = .w10 ∧ c.parity ≠ .disabled) ∧ Parity.ofCode (slice arg0 3 2) = some c.parity ∧
      configOf arg0 arg1 c.parity = c := by
  unfold decodeConfig
  constructor
  · intro h
    split at h
    · cases h
    split at h
    · cases h
    split at h
    · cases h
    split at h
    · cases h
    dsimp only at h
    split at h
    · cases h
    next hvalid hrsv _ _ hparity hbaud hlegal =>
      cases h
      exact ⟨by simpa using hvalid, by simpa using hrsv, hbaud, hlegal, hparity, rfl⟩
  · rintro ⟨hvalid, hrsv, hbaud, hlegal, hparity, hc⟩
    have hwidth : Width.ofCode (slice arg0 1 0) = c.width := congrArg UartConfig.width hc
    simp only [hvalid, hrsv, hbaud, hparity, hwidth, hlegal]
    exact congrArg some (hwidth ▸ hc)

/-- The fields name a configuration exactly where they are the codes of its parts (R116). -/
theorem configOf_eq_iff {arg0 arg1 : Word} {c : UartConfig} :
    configOf arg0 arg1 c.parity = c ↔ c.baud = arg1 ∧ c.width.bits = 7 + slice arg0 1 0 ∧
      bit arg0 4 = decide (c.stop = .two) ∧ bit arg0 5 = decide (c.clk = .fast) := by
  have hlt : slice arg0 1 0 < 4 := Nat.mod_lt _ (by decide)
  rw [← Width.ofCode_eq_iff hlt, ← StopBits.ofBit_eq_iff, ← Clock.ofBit_eq_iff]
  obtain ⟨width, parity, stop, baud, clk⟩ := c
  rw [configOf, UartConfig.mk.injEq]
  tauto

/-- Settles O6: the checks and the fields of INIT's operands, each read as R116's table pairs code and meaning. -/
theorem configurationWordFields : Obligations.ConfigurationWordFields := by
  intro arg0 arg1 c
  rw [decodeConfig_eq_some_iff, configOf_eq_iff, Parity.ofCode_eq_some_iff, Parity.code_eq_iff]
  unfold Describes
  tauto

/-- The fields of a configuration word are the codes of the configuration's parts, and the rest is VALID and zeros (R116). -/
theorem slices_configWord (c : UartConfig) :
    slice (configWord c) 1 0 = c.width.code ∧ slice (configWord c) 3 2 = c.parity.code ∧
      slice (configWord c) 4 4 = c.stop.code ∧ slice (configWord c) 5 5 = c.clk.code ∧ slice (configWord c) 30 6 = 0 ∧
      slice (configWord c) 31 31 = 1 := by
  have hwidth := c.width.code_lt
  have hparity := c.parity.code_lt
  have hstop := c.stop.code_lt
  have hclk := c.clk.code_lt
  simp only [slice, configWord_eq, BitVec.toNat_ofNat, Nat.shiftRight_eq_div_pow]
  omega

/-- Settles O7: each field of the word is the code of its part, so the word describes the configuration. -/
theorem configurationWordRoundTrip : Obligations.ConfigurationWordRoundTrip := by
  intro c hbaud hlegal
  obtain ⟨hwidth, hparity, hstop, hclk, hrsv, hvalid⟩ := slices_configWord c
  refine (configurationWordFields _ _ c).mpr ⟨?valid, hrsv, hbaud, rfl, ?width, ?parity, ?stop, ?clk, ?legal⟩
  case valid => rw [bit_eq_slice, hvalid, decide_eq_true rfl]
  case width => rw [hwidth, Width.bits_eq]
  case parity => rw [← Parity.code_eq_iff, hparity]
  case stop => simp only [bit_eq_slice, hstop, StopBits.code_eq_one_iff]
  case clk => simp only [bit_eq_slice, hclk, Clock.code_eq_one_iff]
  case legal => exact fun ⟨hw, hp⟩ => hp (hlegal hw)

end Sys2Proof.Machine

/-! PROOFS of 30_encoding.md: the result packets. -/

namespace Sys2Proof.Machine

/-! ## What a step adds to the log -/

/-- One step's addition to the log: nothing, the return of a command, the return of a status query, or a firing (30_encoding.md
R112, 44_interrupt_dispatcher.md R267). -/
inductive LogStep (l : List TraceEvent) : List TraceEvent → Prop
  | same : LogStep l l
  | returned (ctx : Ctx) (w0 : Word) (code : ResultCode) : LogStep l (l ++ [.result ctx w0 (resultPacket code 0 0)])
  | queried (ctx : Ctx) {w0 : Word} {status : Nat} (out : Word) (hquery : slice w0 7 0 = 0x40 ∨ slice w0 7 0 = 0x41)
      (hstatus : status ≤ 6) : LogStep l (l ++ [.result ctx w0 (resultPacket .ready status out)])
  | fired (i : Nat) (ev : CallbackEvent) (h : Word) : LogStep l (l ++ [.callback i ev h])

namespace LogStep
variable {s t : State}

/-- Through the instance check, which returns InvalidArgument. -/
theorem of_withInst {w0 : Word} {i : Nat} {rest : InstState → Result} (h : s.withInst w0 i rest = .next t)
    (hrest : ∀ u, rest u = .next t → LogStep s.trace t.trace) : LogStep s.trace t.trace := by
  rcases State.withInst_next h with ⟨-, rfl⟩ | ⟨u, -, h⟩
  · exact .returned ..
  · exact hrest u h

/-- Through the instance and initialization checks. -/
theorem of_withReady {w0 : Word} {i : Nat} {rest : InstState → UartConfig → Result} (h : s.withReady w0 i rest = .next t)
    (hrest : ∀ u c, rest u c = .next t → LogStep s.trace t.trace) : LogStep s.trace t.trace := by
  rcases State.withReady_next h with ⟨_, rfl⟩ | ⟨u, c, -, -, h⟩
  · exact .returned ..
  · exact hrest u c h

/-- Through the acceptance checks. -/
theorem of_withArm {w0 : Word} {i : Nat} {blocking : Bool} {active : State → Nat → InstState → Bool} {addr len : Word}
    {rest : InstState → UartConfig → Result} (h : s.withArm w0 i blocking active addr len rest = .next t)
    (hrest : ∀ u c, rest u c = .next t → LogStep s.trace t.trace) : LogStep s.trace t.trace := by
  rcases State.withArm_next h with ⟨-, -, rfl⟩ | ⟨_, rfl⟩ | ⟨u, c, -, -, -, -, -, -, -, -, h⟩
  · exact .same
  · exact .returned ..
  · exact hrest u c h

/-- A command that ends with a result code. -/
theorem of_finish {r : State} {w0 : Word} {code : ResultCode}
    (h : Host.Outcome.next (r.finish w0 code) = (.next t : Result)) (hr : r.trace = s.trace) : LogStep s.trace t.trace := by
  cases h
  rw [State.finish_trace, hr]
  exact .returned ..

/-- A command that returns no result yet, or raises a fault. -/
theorem of_same {r : State} (h : Host.Outcome.next r = (.next t : Result)) (hr : r.trace = s.trace) :
    LogStep s.trace t.trace := by
  cases h
  rw [hr]
  exact .same

end LogStep

/-- The status codes of the transmit direction are among those of R114. -/
theorem TxStatus.code_le (st : TxStatus) : st.code ≤ 6 := by cases st <;> decide

/-- The status codes of the receive direction are those of R114. -/
theorem RxStatus.code_le (st : RxStatus) : st.code ≤ 6 := by
  cases st with
  | error k => cases k <;> decide
  | _ => decide

/-- What a command adds to the log. -/
theorem exec_logStep {c : Instr} {s t : State} (h : exec c s = .next t) : LogStep s.trace t.trace := by
  cases c with
  | init i config baud =>
    refine .of_withInst h fun u h => ?_
    split at h
    · exact .of_finish h rfl
    · split at h
      · exact .of_same h rfl
      · exact .of_finish h rfl
  | setbaud i baud =>
    refine .of_withReady h fun u c h => ?_
    split at h
    · exact .of_finish h rfl
    · split at h
      · exact .of_same h rfl
      · exact .of_finish h rfl
  | sendBlocking i addr len | recvBlocking i addr len => exact .of_withArm h fun _ _ h => .of_same h rfl
  | sendAsync i addr len => exact .of_withArm (blocking := false) (active := State.txActive) h fun _ _ h => .of_finish h rfl
  | recvAsync i addr len => exact .of_withArm (blocking := false) (active := State.rxActive) h fun _ _ h => .of_finish h rfl
  | deinit i | regCallback i kind handle | regErrCallback i handle => exact .of_withInst h fun _ h => .of_finish h rfl
  | abortSend i | abortRecv i | txEnable i | txDisable i | rxEnable i | rxDisable i =>
    exact .of_withReady h fun _ _ h => .of_finish h rfl
  | getTxStatus i =>
    refine .of_withInst h fun u h => ?_
    cases h
    exact .queried _ _ (.inl (slice_commandWord_opc ..)) (TxStatus.code_le _)
  | getRxStatus i =>
    refine .of_withInst h fun u h => ?_
    cases h
    exact .queried _ _ (.inr (slice_commandWord_opc ..)) (RxStatus.code_le _)

/-- What the delivery of a packet adds to the log. -/
theorem runPacket_logStep {p : Packet} {s t : State} (h : runPacket p s = .next t) : LogStep s.trace t.trace := by
  rcases runPacket_next h with ⟨c, -, h⟩ | rfl
  · exact exec_logStep h
  · exact .returned ..

/-- What a step of FG's loop adds to the log: the result of the blocking command at its end (43_transfer_ops.md R222, R225). -/
theorem foregroundStep_logStep {s t : State} (h : foregroundStep s = some t) : LogStep s.trace t.trace := by
  unfold foregroundStep at h
  split at h
  · split at h
    case h_1 => cases h
    case h_2 =>
      obtain ⟨u, -, h⟩ := Option.bind_eq_some_iff.mp h
      obtain ⟨v, -, rfl⟩ := Option.map_eq_some_iff.mp h
      exact .same
    case h_3 =>
      obtain ⟨u, -, rfl⟩ := Option.map_eq_some_iff.mp h
      unfold sendBlkDone
      split
      · exact .returned ..
      · exact .same
    case h_4 =>
      obtain ⟨u, -, h⟩ := Option.bind_eq_some_iff.mp h
      obtain ⟨r, hstore, rfl⟩ := Option.map_eq_some_iff.mp h
      obtain ⟨m, rfl⟩ := State.codecStore_next hstore
      split
      · exact .returned ..
      · exact .same
  · cases h

/-- What the receive-ready service adds to the log. -/
theorem rxService_logStep {i : Nat} {u : InstState} {s t : State} (h : rxService i u s = some t) :
    LogStep s.trace t.trace := by
  unfold rxService at h
  split at h
  · cases h
    exact .same
  · dsimp only at h
    split at h
    · cases h
      exact .same
    · obtain ⟨r, hstore, rfl⟩ := Option.map_eq_some_iff.mp h
      obtain ⟨m, rfl⟩ := State.codecStore_next hstore
      split
      · exact .fired ..
      · exact .same

/-- What the transmit-ready service adds to the log. -/
theorem txService_logStep {i : Nat} {u : InstState} {s t : State} (h : txService i u s = some t) :
    LogStep s.trace t.trace := by
  unfold txService at h
  split at h
  · cases h
    exact .same
  · dsimp only at h
    split at h
    · cases h
      exact .same
    · obtain ⟨v, -, rfl⟩ := Option.map_eq_some_iff.mp h
      split
      · exact .fired ..
      · exact .same

/-- What the error service adds to the log. -/
theorem errService_logStep (i : Nat) (u : InstState) (s : State) : LogStep s.trace (errService i u s).trace := by
  unfold errService
  split
  · exact .same
  · exact .fired ..

/-- What DISPATCH(i) adds to the log. -/
theorem dispatchStep_logStep {i : Nat} {s t : State} (h : dispatchStep i s = some t) : LogStep s.trace t.trace := by
  unfold dispatchStep at h
  split at h
  · obtain ⟨u, -, h⟩ := Option.bind_eq_some_iff.mp h
    unfold service at h
    split at h
    · exact rxService_logStep h
    · split at h
      · exact txService_logStep h
      · cases h
        exact errService_logStep ..
  · cases h

/-- What an event adds to the log. -/
theorem offer_logStep {ev : Event} {s t : State} (h : offer ev s = some (.next t)) : LogStep s.trace t.trace := by
  cases ev with
  | command p => exact runPacket_logStep (offer_command_next h).2
  | interrupt =>
    rcases interruptStep_next h with ⟨i, ev, p, rest, -, hrun⟩ | rfl
    · simpa using runPacket_logStep hrun
    · exact .same
  | foreground => exact foregroundStep_logStep (eq_some_of_map_next h)
  | dispatch i => exact dispatchStep_logStep (eq_some_of_map_next h)
  | txLoad i =>
    obtain ⟨u, -, -, rfl⟩ := txLoadStep_next (eq_some_of_map_next h)
    exact .same
  | txShiftDone i =>
    obtain ⟨u, f, -, -, rfl⟩ := txShiftDoneStep_next (eq_some_of_map_next h)
    exact .same
  | rxFrame i f =>
    obtain ⟨u, -, rfl⟩ := rxFrameStep_next (eq_some_of_map_next h)
    exact .same
  | hostWrite a v =>
    cases h
    exact .same

/-- What a step adds to the log; an idle step and a lapsed entry add nothing. -/
theorem step_logStep {s t : State} (h : step s = .next t) : LogStep s.trace t.trace := by
  obtain ⟨-, ⟨-, rfl⟩ | ⟨ev, rest, -, hadvance⟩⟩ := step_next h
  · exact .same
  · rcases advance_next hadvance with hoffer | ⟨-, rfl⟩
    · simpa using offer_logStep hoffer
    · exact .same

/-! ## Result packets -/

/-- The result codes are those of R113. -/
theorem ResultCode.code_le (code : ResultCode) : code.code ≤ 3 := by cases code <;> decide

/-- The fields of P0 of a result packet: the result code, the status code, and zeros (R112). -/
theorem slices_resultPacket (code : ResultCode) {status : Nat} (hstatus : status ≤ 6) (out : Word) :
    slice (resultPacket code status out).p0 7 0 = code.code ∧ slice (resultPacket code status out).p0 15 8 = status ∧
      slice (resultPacket code status out).p0 31 16 = 0 := by
  have hcode := code.code_le
  simp only [slice, resultPacket, BitVec.toNat_ofNat, Nat.shiftRight_eq_div_pow]
  omega

/-- A result a step adds to the log is a command's, with no status and no OUT1, or a query's, with a status code. -/
theorem LogStep.new_result {l l' : List TraceEvent} (h : LogStep l l') {ctx : Ctx} {w0 : Word} {p : ResultPacket}
    (hnew : .result ctx w0 p ∈ l') (hold : .result ctx w0 p ∉ l) :
    (∃ code, p = resultPacket code 0 0) ∨
      (slice w0 7 0 = 0x40 ∨ slice w0 7 0 = 0x41) ∧ ∃ status ≤ 6, ∃ out, p = resultPacket .ready status out := by
  cases h with
  | same => exact absurd hnew hold
  | returned ctx' w0' code =>
    obtain ⟨rfl, rfl, rfl⟩ : ctx = ctx' ∧ w0 = w0' ∧ p = resultPacket code 0 0 := by simpa [hold] using hnew
    exact .inl ⟨code, rfl⟩
  | @queried ctx' w0' status out hquery hstatus =>
    obtain ⟨rfl, rfl, rfl⟩ : ctx = ctx' ∧ w0 = w0' ∧ p = resultPacket .ready status out := by simpa [hold] using hnew
    exact .inr ⟨hquery, status, hstatus, out, rfl⟩
  | fired i ev handle => simp [hold] at hnew

/-- Settles O57: a step adds at most one result, and the fields of a result packet are its codes. -/
theorem resultPacketsAreWellFormed : Obligations.ResultPacketsAreWellFormed := by
  intro s t ctx w0 p hstep hnew hold
  rcases (step_logStep hstep).new_result hnew hold with ⟨code, rfl⟩ | ⟨hquery, status, hstatus, out, rfl⟩
  · obtain ⟨hcode, hstatus, hrsv⟩ := slices_resultPacket code (Nat.zero_le 6) 0
    exact ⟨hcode.trans_le code.code_le, hstatus.trans_le (Nat.zero_le 6), hrsv, fun _ => ⟨hstatus, rfl⟩⟩
  · obtain ⟨hcode, hstatus', hrsv⟩ := slices_resultPacket .ready hstatus out
    refine ⟨hcode.trans_le ResultCode.ready.code_le, hstatus'.trans_le hstatus, hrsv, ?_⟩
    rintro (⟨hne, hne'⟩ | hinvalid)
    · exact absurd hquery (by simp [hne, hne'])
    · rw [hcode] at hinvalid
      cases hinvalid

end Sys2Proof.Machine

/-! PROOFS of 30_encoding.md: the delivery of packets and the assembler. -/

namespace Sys2Proof.Machine

/-! ## The delivery of a packet by a step -/

/-- FG's next command is delivered in the state with the agenda moved on. -/
theorem step_command {s : State} {p : Packet} {rest : List Event} (h : NextUp s (.command p) rest) (hic : s.ic = .none)
    (hfg : s.fg = .idle) : step s = runPacket p { s with agenda := rest } := by
  rw [step_of_nextUp h]
  refine advance_of_offer_some ?_
  simp only [offer, commandEnabled, hic, hfg]
  rfl

/-- A handler's next packet is delivered with that packet off `pending` and the agenda moved on (60_exceptions.md R328). -/
theorem step_handler_packet {s : State} {i : Nat} {ev : CallbackEvent} {p : Packet} {pending : List Packet}
    {rest : List Event} (h : NextUp s .interrupt rest) (hic : s.ic = .active i ev (p :: pending)) :
    step s = runPacket p { s with agenda := rest, ic := .active i ev pending } := by
  rw [step_of_nextUp h]
  refine advance_of_offer_some ?_
  simp only [offer, interruptStep, hic]

/-- Settles O8: the step delivers the packet, and a delivery is the command's execution or the InvalidArgument entry. -/
theorem stepRunsForegroundCommand : Obligations.StepRunsForegroundCommand := by
  intro s p rest hnext hic hfg
  rw [step_command hnext hic hfg]
  refine ⟨fun c hc _ => runPacket_of_ok hc _, fun herror => ?_⟩
  rw [runPacket_of_error herror]
  simp only [State.ctx, hic]

/-- The step after `withPacket` delivers that packet, with no fault recorded and, where no handler is active, FG idle. -/
theorem step_withPacket (s : State) (p : Packet) :
    step (s.withPacket p) = runPacket p { s with fg := if s.ic = .none then .idle else s.fg, faults := [] } := by
  cases hic : s.ic with
  | none =>
    have hnext : NextUp (s.withPacket p) (.command p) s.agenda := by simp [NextUp, State.withPacket, hic]
    rw [step_command hnext (by simp [State.withPacket, hic]) (by simp [State.withPacket, hic])]
    simp [State.withPacket, hic]
  | active i ev pending =>
    have hnext : NextUp (s.withPacket p) .interrupt s.agenda := by simp [NextUp, State.withPacket, hic]
    have hpending : (s.withPacket p).ic = .active i ev (p :: pending) := by simp [State.withPacket, hic]
    rw [step_handler_packet hnext hpending]
    simp [State.withPacket, hic]

/-- A numbered word that reads as a command is the packet of it. -/
theorem decode_tablePacket {nbits w : Nat} {c : Instr} (h : decodeTableWord nbits w = some c) :
    decode (tablePacket nbits w) = .ok c := by
  unfold decodeTableWord at h
  split at h
  · cases h
    assumption
  · cases h

/-- Settles O14: the step after `withFetchWord` delivers the word's packet, which decodes to the command. -/
theorem fetchWordIsDelivered : Obligations.FetchWordIsDelivered := by
  intro s nbits w c hc
  rw [State.withFetchWord, step_withPacket, runPacket_of_ok (decode_tablePacket hc)]

/-! ## The assembler -/

/-- Settles O4: the four lines and their packets, evaluated. -/
theorem encodingExamplesDecode : Obligations.EncodingExamplesDecode := by
  unfold Obligations.EncodingExamplesDecode
  decide

/-- An index the assembler reads fits the instance field. -/
theorem readInstance_lt {text : List Char} {n : Nat} (h : readInstance text = some n) : n < 16 := by
  unfold readInstance at h
  split at h
  · split at h
    · cases h
    · simpa using (Option.filter_eq_some_iff.mp h).2
  · cases h

/-- CONFIGURE is another name of INIT. -/
theorem map_assemble_readInit_configure (operands : List (List Char)) :
    (readInit .configure operands).map assemble = (readInit .initSymbolic operands).map assemble := by
  unfold readInit
  split
  · simp [assemble, Option.map_bind, Function.comp_def]
  · rfl

/-- SET_BAUD is another name of SETBAUD. -/
theorem map_assemble_readBinary_setBaud (operands : List (List Char)) :
    (readBinary .setBaud operands).map assemble =
      (readBinary (fun i baud => .plain (.setbaud i baud)) operands).map assemble := by
  unfold readBinary
  split
  · simp [assemble, Option.map_bind, Function.comp_def]
  · rfl

/-- UNREGISTER is REG_CALLBACK with handle 0. -/
theorem map_assemble_readUnregister (i kind : List Char) :
    (readUnregister [i, kind]).map assemble = (readRegCallback [i, kind, ['0']]).map assemble := by
  have hzero : readWord ['0'] = some 0 := by decide
  simp [readUnregister, readRegCallback, hzero, assemble, Option.map_bind, Function.comp_def]

/-- SET_BAUD's packet: SETBAUD's opcode and the instance in W0, ARG0 = 0, the rate in ARG1. -/
theorem map_assemble_readBinary_setBaud_of_read {i baud : List Char} {n : Nat} {b : Word} (hi : readInstance i = some n)
    (hb : readWord baud = some b) :
    (readBinary .setBaud [i, baud]).map assemble = some ⟨BitVec.ofNat 32 (0x03 + n * 2 ^ 8), 0, b⟩ := by
  have hn : n % 16 = n := Nat.mod_eq_of_lt (readInstance_lt hi)
  simp [readBinary, hi, hb, assemble, encode, Instr.w0, commandWord, Instr.inst, Instr.op, Op.code, Instr.kindCode, hn]

/-- A registration writes the slot and answers Ready, or answers InvalidArgument, whichever command word it logs (R190, R191). -/
theorem registration_next (s : State) (i : Nat) (kind : SlotKind) (handle : Word) :
    ∃ (t : State) (r : ResultPacket), ∀ w0,
      (s.withInst w0 i fun u => .next ((s.setInst i { u with cb := u.cb.put kind handle }).finish w0 .ready)) =
        .next { t with trace := s.trace ++ [.result s.ctx w0 r] } := by
  unfold State.withInst
  cases s.inst[i]? with
  | none => exact ⟨s, resultPacket .invalidArgument 0 0, fun _ => rfl⟩
  | some u =>
    exact ⟨s.setInst i { u with cb := u.cb.put kind handle }, resultPacket .ready 0 0, fun _ => rfl⟩

/-- Settles O5: each pseudo-command reads as its expansion does, and the two registrations differ in their command word
alone. -/
theorem pseudoCommandsExpand : Obligations.PseudoCommandsExpand := by
  refine ⟨map_assemble_readInit_configure, map_assemble_readUnregister, map_assemble_readBinary_setBaud,
    fun _ _ _ _ => map_assemble_readBinary_setBaud_of_read, fun s i h => ⟨?_, ?_, ?_, ?_⟩⟩
  · exact slice_commandWord_opc ..
  · exact slice_commandWord_kind ..
  · exact slice_commandWord_opc ..
  · obtain ⟨t, r, hr⟩ := registration_next s i .error h
    refine ⟨t, r, fun cmd hcmd => ?_⟩
    obtain rfl | rfl : cmd = .regCallback i .error h ∨ cmd = .regErrCallback i h := by simpa using hcmd
    · exact hr _
    · exact hr _

end Sys2Proof.Machine

/-! PROOFS of 40_divisor_search.md: the candidate of a ratio, the search's optimum and the fields ProgramBaud writes. -/

namespace Sys2Proof.Machine

/-! ## The candidate of a ratio -/

/-- A quotient of 0 is clamped to the divider 1 (R141). -/
theorem candidateD_of_lt {clk baud r : Nat} (h : clk < baud * r) : candidateD clk baud r = 1 := by
  rw [candidateD, Nat.div_eq_of_lt h]
  rfl

/-- A quotient above 8191 is clamped to the divider 8191 (R141). -/
theorem candidateD_of_ge {clk baud r : Nat} (hpos : 0 < baud * r) (h : 8192 * (baud * r) ≤ clk) :
    candidateD clk baud r = 8191 := by
  have hq : 8192 ≤ clk / (baud * r) := (Nat.le_div_iff_mul_le hpos).mpr h
  unfold candidateD clamp
  omega

/-- A quotient in 1..8191 is the divider (R141). -/
theorem candidateD_of_between {clk baud r : Nat} (hpos : 0 < baud * r) (hlo : baud * r ≤ clk)
    (hhi : clk < 8192 * (baud * r)) : candidateD clk baud r = clk / (baud * r) := by
  have hqlo : 1 ≤ clk / (baud * r) := Nat.div_pos hlo hpos
  have hqhi : clk / (baud * r) < 8192 := (Nat.div_lt_iff_lt_mul hpos).mpr hhi
  unfold candidateD clamp
  omega

/-- The distance as a sum of truncated differences, one of which is 0 (00_scope.md R14). -/
theorem absDiff_eq_add_sub (a b : Nat) : absDiff a b = (a - b) + (b - a) := by
  unfold absDiff
  split <;> omega

/-- Settles O16: the divider by the range of the quotient, and both divisions round down. -/
theorem candidateRoundsDownAndClamps : Obligations.CandidateRoundsDownAndClamps := by
  intro clk baud r hbaud hr _
  have hpos : 0 < baud * r := Nat.mul_pos hbaud (by omega)
  have hdr : 0 < candidateD clk baud r * r := Nat.mul_pos (candidateD_bounds clk baud r).1 (by omega)
  refine ⟨candidateD_of_lt, candidateD_of_ge hpos, fun hlo hhi => ?_, Nat.div_mul_le_self .., ?_,
    absDiff_eq_add_sub ..⟩
  · rw [candidateD_of_between hpos hlo hhi]
    exact ⟨Nat.div_mul_le_self .., Nat.lt_mul_of_div_lt (Nat.lt_succ_self _) hpos⟩
  · exact Nat.lt_mul_of_div_lt (Nat.lt_succ_self _) hdr

/-! ## The optimum of the search -/

/-- `best` is the lowest ratio of least error among 4 to `n` (R143). -/
structure LowestOptimum (clk baud n best : Nat) : Prop where
  least : ∀ r, 4 ≤ r → r ≤ n → candidateErr clk baud best ≤ candidateErr clk baud r
  lowest : ∀ r, 4 ≤ r → r < best → candidateErr clk baud best < candidateErr clk baud r

/-- One turn of the search's loop takes the optimum up to `n` to the optimum up to `n + 1`. -/
theorem LowestOptimum.after_betterRatio {clk baud n best : Nat} (h : LowestOptimum clk baud n best) :
    LowestOptimum clk baud (n + 1) (betterRatio clk baud best (n + 1)) := by
  rcases betterRatio_cases clk baud best (n + 1) with ⟨hnew, hlt⟩ | ⟨hkept, hle⟩
  · have hbelow : ∀ r, 4 ≤ r → r < n + 1 → candidateErr clk baud (n + 1) < candidateErr clk baud r :=
      fun r h4 hr => hlt.trans_le (h.least r h4 (by omega))
    rw [hnew]
    refine ⟨fun r h4 hr => ?_, hbelow⟩
    obtain hr | rfl := Nat.lt_or_eq_of_le hr
    · exact (hbelow r h4 hr).le
    · exact le_rfl
  · rw [hkept]
    refine ⟨fun r h4 hr => ?_, h.lowest⟩
    obtain hr | rfl := Nat.lt_or_eq_of_le hr
    · exact h.least r h4 (by omega)
    · exact hle

/-- The loop over `k` ratios from `n + 1` on takes the optimum up to `n` to the optimum up to `n + k`. -/
theorem LowestOptimum.after_foldl {clk baud n best : Nat} (h : LowestOptimum clk baud n best) (k : Nat) :
    LowestOptimum clk baud (n + k) ((List.range' (n + 1) k).foldl (betterRatio clk baud) best) := by
  induction k generalizing n best with
  | zero => exact h
  | succ k ih =>
    rw [List.range'_succ, List.foldl_cons, Nat.add_comm k 1, ← Nat.add_assoc]
    exact ih h.after_betterRatio

/-- The search's ratio is the optimum over all ratios 4 to 32. -/
theorem lowestOptimum_bestRatio (clk baud : Nat) : LowestOptimum clk baud 32 (bestRatio clk baud) := by
  have hfour : LowestOptimum clk baud 4 4 :=
    ⟨fun r h4 hr => by rw [Nat.le_antisymm hr h4], fun r h4 hr => absurd hr (by omega)⟩
  exact hfour.after_foldl 28

/-- Settles O15: the loop keeps the lowest optimum over the ratios it has seen. -/
theorem divisorSearchIsOptimal : Obligations.DivisorSearchIsOptimal := by
  intro clk baud
  obtain ⟨hlo, hhi⟩ := bestRatio_bounds clk baud
  obtain ⟨hD1, hD8191⟩ := candidateD_bounds clk baud (bestRatio clk baud)
  obtain ⟨hleast, hlowest⟩ := lowestOptimum_bestRatio clk baud
  exact ⟨hlo, hhi, hD1, hD8191, rfl, hleast, hlowest⟩

/-! ## The override -/

/-- Settles O17: the override is the first branch of the search, BaseSearch the second. -/
theorem overrideForcesRatioSixteen : Obligations.OverrideForcesRatioSixteen :=
  fun _ _ _ _ => ⟨fun h => if_pos h, fun h => if_neg h⟩

/-! ## The fields ProgramBaud writes -/

/-- A bit of BAUD outside SBR, BOTHEDGE and OSR keeps its value (R146). -/
theorem bit_programBaud_other (p : Params) (i : Nat) (c : UartConfig) (w : Word) {k : Nat} (hsbr : 12 < k)
    (hedge : k ≠ Baud.bothEdge) (hosr : k < 24 ∨ 28 < k) : bit (programBaud p i c w) k = bit w k := by
  rw [programBaud, bit_setBit_other _ _ _ _ (by decide) hedge]
  simp only [bit, Baud.withSbr, Baud.withOsr]
  rw [getLsbD_setField _ _ _ _ _ (by decide) (by decide), if_neg (by omega),
    getLsbD_setField _ _ _ _ _ (by decide) (by decide), if_neg (by omega)]

/-- Settles O18: each of the three fields reads back, and a bit outside them is kept. -/
theorem programBaudWritesThreeFields : Obligations.ProgramBaudWritesThreeFields := by
  intro p i c w
  have hosr := osr_programBaud p i c w
  refine ⟨by omega, sbr_programBaud .., ?_, fun k _ hsbr hedge hother => bit_programBaud_other _ _ _ _ hsbr hedge hother⟩
  rw [bothEdge_programBaud, hosr]

end Sys2Proof.Machine

/-! PROOFS of 41_framing_codec.md: a character loaded from buffer memory and stored there. -/

namespace Sys2Proof.Machine

/-! ## Masks, strides and bytes -/

/-- Effective widths up to 8 take one byte (R161). -/
theorem stride_of_le {e : Nat} (he : e ≤ 8) : stride e = 1 := if_pos he

/-- Effective widths above 8 take two bytes (R161). -/
theorem stride_of_gt {e : Nat} (he : 8 < e) : stride e = 2 := if_neg (by omega)

/-- The mask cuts to the effective width (R161). -/
theorem and_mask (n e : Nat) : n &&& mask e = n % 2 ^ e := Nat.and_two_pow_sub_one_eq_mod n e

/-- The high byte's share of the mask is the mask of the bits above the low byte. -/
theorem mask_shiftRight (e k : Nat) : mask e >>> k = mask (e - k) := by
  apply Nat.eq_of_testBit_eq
  intro j
  simp only [mask, Nat.testBit_shiftRight, Nat.testBit_two_pow_sub_one, Nat.lt_sub_iff_add_lt']

/-- The little-endian pair as a number: the two bytes do not overlap. -/
theorem toNat_or_shiftLeft (lo hi : Byte) : lo.toNat ||| hi.toNat <<< 8 = lo.toNat + 256 * hi.toNat := by
  rw [Nat.or_comm, ← Nat.shiftLeft_add_eq_or_of_lt lo.isLt, Nat.shiftLeft_eq]
  omega

/-- A value of at most eight bits is kept whole in a byte. -/
theorem toNat_byte_mod {k : Nat} (hk : k ≤ 8) (n : Nat) : (BitVec.ofNat 8 (n % 2 ^ k)).toNat = n % 2 ^ k :=
  Nat.mod_eq_of_lt
    ((Nat.mod_lt n (Nat.two_pow_pos k)).trans_le (Nat.pow_le_pow_right (by decide) hk))

/-- A value of the effective width is put together again from its low byte and the bits above it. -/
theorem lowByte_add_highBits_mod {e v : Nat} (he : 8 ≤ e) (hv : v < 2 ^ e) :
    (v % 256 + 256 * (v / 256 % 2 ^ (e - 8))) % 2 ^ e = v := by
  have hpow : 2 ^ 8 * 2 ^ (e - 8) = 2 ^ e := by rw [← Nat.pow_add, Nat.add_sub_cancel' he]
  have hhigh : v / 256 < 2 ^ (e - 8) := Nat.div_lt_of_lt_mul (hpow.symm ▸ hv)
  rw [Nat.mod_eq_of_lt hhigh, Nat.mod_add_div, Nat.mod_eq_of_lt hv]

/-! ## CodecLoad -/

/-- CodecLoad of one byte (R162). -/
theorem State.codecLoad_of_le (s : State) (a : Nat) {e : Nat} (he : e ≤ 8) :
    s.codecLoad a e = if Params.admits s.params a then some ((s.byteAt a).toNat % 2 ^ e) else none := by
  rw [State.codecLoad, if_pos (stride_of_le he), State.memRead]
  split <;> simp [and_mask]

/-- CodecLoad of two bytes (R162). -/
theorem State.codecLoad_of_gt (s : State) (a : Nat) {e : Nat} (he : 8 < e) :
    s.codecLoad a e = if Params.admits s.params a && Params.admits s.params (a + 1) then
      some (((s.byteAt a).toNat + 256 * (s.byteAt (a + 1)).toNat) % 2 ^ e) else none := by
  rw [State.codecLoad, if_neg (by simp [stride_of_gt he]), State.memRead, State.memRead]
  cases Params.admits s.params a <;> cases Params.admits s.params (a + 1) <;> simp [and_mask, toNat_or_shiftLeft]

/-- Settles O20: one byte or the pair, by the stride, each read only where it is admitted. -/
theorem codecLoadReadsLittleEndian : Obligations.CodecLoadReadsLittleEndian :=
  fun s a _ _ _ => ⟨s.codecLoad_of_le a, s.codecLoad_of_gt a⟩

/-! ## CodecStore -/

/-- CodecStore of one byte (R163). -/
theorem State.codecStore_of_le (s : State) (a v : Nat) {e : Nat} (he : e ≤ 8) :
    s.codecStore a v e = if Params.admits s.params a then
      some { s with mem := Memory.write s.mem a (BitVec.ofNat 8 (v % 2 ^ e)) } else none := by
  rw [State.codecStore, if_pos (stride_of_le he), State.memWrite, and_mask]

/-- CodecStore of two bytes (R163). -/
theorem State.codecStore_of_gt (s : State) (a v : Nat) {e : Nat} (he : 8 < e) :
    s.codecStore a v e = if Params.admits s.params a && Params.admits s.params (a + 1) then
      some { s with
        mem := Memory.write (Memory.write s.mem a (BitVec.ofNat 8 (v % 2 ^ 8))) (a + 1)
          (BitVec.ofNat 8 (v / 256 % 2 ^ (e - 8))) } else none := by
  have hlow : v &&& 0xFF = v % 2 ^ 8 := and_mask v 8
  have hhigh : (v >>> 8) &&& (mask e >>> 8) = v / 256 % 2 ^ (e - 8) := by
    rw [mask_shiftRight, and_mask, Nat.shiftRight_eq_div_pow]
  rw [State.codecStore, if_neg (by simp [stride_of_gt he]), hlow, hhigh]
  cases hfirst : Params.admits s.params a <;> simp [State.memWrite, hfirst]

/-- A store of one byte that happens is admitted, writes the value cut to the width and keeps every other byte. -/
theorem State.byteAt_codecStore_of_le {s t : State} {a v e : Nat} (hm : Memory.wf s.mem) (he : e ≤ 8)
    (h : s.codecStore a v e = some t) :
    Params.admits s.params a = true ∧ (t.byteAt a).toNat = v % 2 ^ e ∧ ∀ x, x ≠ a → t.byteAt x = s.byteAt x := by
  rw [State.codecStore_of_le s a v he] at h
  obtain ⟨hadmits, h⟩ := Option.ite_none_right_eq_some.mp h
  cases h
  refine ⟨hadmits, ?written, fun x hx => ?kept⟩
  case written => rw [State.byteAt_withWrite hm, if_pos rfl, toNat_byte_mod he]
  case kept => rw [State.byteAt_withWrite hm, if_neg hx]

/-- A store of two bytes that happens is admitted, writes the low byte and the bits above it and keeps every other byte. -/
theorem State.byteAt_codecStore_of_gt {s t : State} {a v e : Nat} (hm : Memory.wf s.mem) (he : 8 < e) (he' : e ≤ 16)
    (h : s.codecStore a v e = some t) :
    (Params.admits s.params a && Params.admits s.params (a + 1)) = true ∧ (t.byteAt a).toNat = v % 256 ∧
      (t.byteAt (a + 1)).toNat = v / 256 % 2 ^ (e - 8) ∧ ∀ x, x ≠ a → x ≠ a + 1 → t.byteAt x = s.byteAt x := by
  rw [State.codecStore_of_gt s a v he] at h
  obtain ⟨hadmits, h⟩ := Option.ite_none_right_eq_some.mp h
  cases h
  have hlt : a < 2 ^ 32 := Params.admits_lt (Bool.and_eq_true_iff.mp hadmits).1
  have hbyte := State.byteAt_withWrite (s := { s with mem := Memory.write s.mem a (BitVec.ofNat 8 (v % 2 ^ 8)) })
    (Memory.wf_write hm hlt _) (a + 1) (BitVec.ofNat 8 (v / 256 % 2 ^ (e - 8)))
  simp only [State.byteAt_withWrite hm] at hbyte
  refine ⟨hadmits, ?low, ?high, fun x hx hx' => ?kept⟩
  case low =>
    rw [hbyte, if_neg (by omega), if_pos rfl]
    exact toNat_byte_mod le_rfl v
  case high => rw [hbyte, if_pos rfl, toNat_byte_mod (by omega)]
  case kept => rw [hbyte, if_neg hx', if_neg hx]

/-- Settles O21: the store by the stride, refused or done, and the bytes after it. -/
theorem codecStoreWritesMaskedBytes : Obligations.CodecStoreWritesMaskedBytes := by
  intro s a v e hm _ he
  refine ⟨fun hle hrefused => ?_, fun hgt hrefused => ?_, fun hle hadmits => ?_, fun hgt hfirst hsecond => ?_⟩
  · rw [State.codecStore_of_le s a v hle, hrefused, if_neg Bool.false_ne_true]
  · rw [State.codecStore_of_gt s a v hgt, hrefused, if_neg Bool.false_ne_true]
  · have hstore := (State.codecStore_of_le s a v hle).trans (if_pos hadmits)
    exact ⟨_, hstore, (State.byteAt_codecStore_of_le hm hle hstore).2⟩
  · have hstore := (State.codecStore_of_gt s a v hgt).trans (if_pos (Bool.and_eq_true_iff.mpr ⟨hfirst, hsecond⟩))
    exact ⟨_, hstore, (State.byteAt_codecStore_of_gt hm hgt (by omega) hstore).2⟩

/-! ## A load after a store -/

/-- CodecStore keeps the parameters. -/
theorem State.codecStore_params {s t : State} {a v e : Nat} (h : s.codecStore a v e = some t) : t.params = s.params := by
  obtain ⟨m, rfl⟩ := State.codecStore_next h
  rfl

/-- Settles O22: the load reads the bytes the store wrote, which hold the whole value. -/
theorem codecStoreThenLoad : Obligations.CodecStoreThenLoad := by
  intro s t a v e hm _ he hv hstore
  have hparams := State.codecStore_params hstore
  rcases Nat.lt_or_ge 8 e with hgt | hle
  · obtain ⟨hadmits, hlow, hhigh, -⟩ := State.byteAt_codecStore_of_gt hm hgt (by omega) hstore
    rw [State.codecLoad_of_gt t a hgt, hparams, if_pos hadmits, hlow, hhigh, lowByte_add_highBits_mod hgt.le hv]
  · obtain ⟨hadmits, hwritten, -⟩ := State.byteAt_codecStore_of_le hm hle hstore
    rw [State.codecLoad_of_le t a hle, hparams, if_pos hadmits, hwritten, Nat.mod_mod, Nat.mod_eq_of_lt hv]

end Sys2Proof.Machine

/-! PROOFS of 42_configuration_ops.md: the shared checks as equations, and the outcomes of a command in the terms claims are
made in. -/

namespace Sys2Proof.Machine

/-! ## The shared checks -/

section
variable {s : State} {w0 : Word} {i : Nat} {u : InstState}

/-- No such instance: the command answers InvalidArgument (42_configuration_ops.md R180). -/
theorem State.withInst_of_none {rest : InstState → Result} (hu : s.inst[i]? = none) :
    s.withInst w0 i rest = .next (s.finish w0 .invalidArgument) := by
  rw [State.withInst, hu]

/-- The instance check passed. -/
theorem State.withInst_of_some {rest : InstState → Result} (hu : s.inst[i]? = some u) : s.withInst w0 i rest = rest u := by
  rw [State.withInst, hu]

/-- No such instance, for a command that checks the initialization too. -/
theorem State.withReady_of_none {rest : InstState → UartConfig → Result} (hu : s.inst[i]? = none) :
    s.withReady w0 i rest = .next (s.finish w0 .invalidArgument) :=
  State.withInst_of_none hu

/-- An uninitialized instance: the command answers NotReady (R181). -/
theorem State.withReady_of_uninitialized {rest : InstState → UartConfig → Result} (hu : s.inst[i]? = some u)
    (hcfg : u.cfg = none) : s.withReady w0 i rest = .next (s.finish w0 .notReady) := by
  rw [State.withReady, State.withInst_of_some hu, hcfg]

/-- The instance and initialization checks passed. -/
theorem State.withReady_of_cfg {rest : InstState → UartConfig → Result} {c : UartConfig} (hu : s.inst[i]? = some u)
    (hcfg : u.cfg = some c) : s.withReady w0 i rest = rest u c := by
  rw [State.withReady, State.withInst_of_some hu, hcfg]

end

/-! ## Transfers in flight -/

/-- The test for a blocking send is exact. -/
theorem sendsOn_iff {s : State} {i : Nat} : s.fg.sendsOn i = true ↔ SendsBlocking s i := by
  unfold SendsBlocking
  cases s.fg <;> simp [FgState.sendsOn]

/-- The test for a blocking receive is exact. -/
theorem receivesOn_iff {s : State} {i : Nat} : s.fg.receivesOn i = true ↔ ReceivesBlocking s i := by
  unfold ReceivesBlocking
  cases s.fg <;> simp [FgState.receivesOn]

/-- The test for a transfer in flight is exact (10_state.md R50). -/
theorem inFlight_iff {s : State} {i : Nat} {u : InstState} : s.inFlight i u = true ↔ InFlight s i u := by
  simp only [State.inFlight, Bool.or_eq_true, sendsOn_iff, receivesOn_iff]
  tauto

/-! ## Finishing -/

/-- A command that writes its own instance and returns a code. -/
theorem finishes_of_setInst {c : Instr} {s : State} {u v : InstState} {code : ResultCode} (hu : s.inst[c.inst]? = some u)
    (h : exec c s = .next ((s.setInst c.inst v).finish c.w0 code)) : Finishes c s v (BitVec.ofNat 32 code.code) := by
  obtain ⟨hlt, -⟩ := List.getElem?_eq_some_iff.mp hu
  exact ⟨_, h, List.getElem?_set_self hlt,
    ⟨List.length_set, fun j hj => List.getElem?_set_ne hj.symm, rfl, rfl, rfl, fun _ => rfl, rfl, rfl⟩, rfl⟩

end Sys2Proof.Machine

/-! PROOFS of 42_configuration_ops.md: the configuration commands INIT, DEINIT and SETBAUD. -/

namespace Sys2Proof.Machine

/-! ## INIT -/

section
variable {s : State} {i : Nat} {arg0 arg1 : Word} {u : InstState} (hu : s.inst[i]? = some u)
include hu

/-- INIT with operands that describe no configuration (42_configuration_ops.md R182). -/
theorem exec_init_of_illegal (hdecode : decodeConfig arg0 arg1 = none) : Rejects (.init i arg0 arg1) s 2 :=
  (State.withInst_of_some hu).trans (by rw [hdecode]; rfl)

/-- INIT with a transfer in flight. -/
theorem exec_init_of_inFlight {c : UartConfig} (hdecode : decodeConfig arg0 arg1 = some c) (hflight : InFlight s i u) :
    FaultsWith (.init i arg0 arg1) s .configureDuringTransfer :=
  (State.withInst_of_some hu).trans (by rw [hdecode]; exact if_pos (inFlight_iff.mpr hflight))

/-- INIT with every check passed. -/
theorem exec_init_of_idle {c : UartConfig} (hdecode : decodeConfig arg0 arg1 = some c) (hflight : ¬ InFlight s i u) :
    Finishes (.init i arg0 arg1) s (configured s.params i c u) 0 :=
  finishes_of_setInst (code := .ready) hu
    ((State.withInst_of_some hu).trans (by rw [hdecode]; exact if_neg (mt inFlight_iff.mp hflight)))

end

/-- Operands that describe no configuration are refused by the decoder. -/
theorem decodeConfig_eq_none {arg0 arg1 : Word} (h : ∀ c, ¬ Describes arg0 arg1 c) : decodeConfig arg0 arg1 = none :=
  Option.eq_none_iff_forall_ne_some.mpr fun c hdecode => h c ((configurationWordFields ..).mp hdecode)

/-- The effective width is 7, 9 or 10 by the width and the parity (41_framing_codec.md R160, R164). -/
theorem effw_eq_iff (c : UartConfig) :
    (effw c = 7 ↔ c.width = .w7 ∧ c.parity = .disabled) ∧
    (effw c = 9 ↔ c.width = .w8 ∧ c.parity ≠ .disabled ∨ c.width = .w9 ∧ c.parity = .disabled) ∧
    (effw c = 10 ↔ c.width = .w9 ∧ c.parity ≠ .disabled ∨ c.width = .w10 ∧ c.parity = .disabled) := by
  unfold effw
  cases c.width <;> cases c.parity <;> decide

/-- The framing is programmed in the width selects and the parity fields alone. -/
theorem sameBut_withFraming (w : Word) (c : UartConfig) :
    SameBut [Ctrl.m7, Ctrl.m, Ctrl.m10, Ctrl.pe, Ctrl.pt] w (withFraming w c) :=
  (((((SameBut.refl _ w).setBit Ctrl.m7 _ (by decide) (by decide)).setBit Ctrl.m _ (by decide) (by decide)).setBit
    Ctrl.m10 _ (by decide) (by decide)).setBit Ctrl.pe _ (by decide) (by decide)).setBit
    Ctrl.pt _ (by decide) (by decide)

/-- Settles O23: the outcome by the checks, and the fields from the invariant of the configured instance and the bits of its
framing. -/
theorem initConfiguresInstance : Obligations.InitConfiguresInstance := by
  intro s i arg0 arg1 cmd
  refine ⟨State.withInst_of_none, fun u hu => ⟨fun hnone => exec_init_of_illegal hu (decodeConfig_eq_none hnone), ?_⟩⟩
  intro c hdescribes
  have hdecode : decodeConfig arg0 arg1 = some c := (configurationWordFields ..).mpr hdescribes
  obtain ⟨hwidth, hrate⟩ := decodeConfig_legal hdecode
  have hok : InstOk s.params i (configured s.params i c u) := instOk_configured u hwidth hrate
  obtain ⟨-, -, hreserved, -⟩ := hok.regs
  obtain ⟨-, -, heffw, hpe, hpt, hsbns, hdivisor, hedge, -⟩ := hok.cfg.2 c rfl
  obtain ⟨hseven, hnine, hten⟩ := effw_eq_iff c
  have hbit := bit_withFraming Ctrl.resetValue c
  refine ⟨exec_init_of_inFlight hu hdecode, fun hflight => ⟨_, exec_init_of_idle hu hdecode hflight, rfl, ?width, heffw,
    ?m7, ?m, ?m10, hpe, hpt, sameBut_withFraming _ c, rfl, hdivisor, hedge, hsbns, hreserved, rfl, rfl, rfl, rfl, rfl, rfl,
    rfl, rfl, rfl⟩⟩
  case width => simp only [effw, ne_eq, ite_not]
  case m7 => exact (hbit Ctrl.m7).trans (decide_eq_decide.mpr hseven)
  case m => exact (hbit Ctrl.m).trans (decide_eq_decide.mpr hnine)
  case m10 => exact (hbit Ctrl.m10).trans (decide_eq_decide.mpr hten)

/-! ## DEINIT -/

/-- Settles O24: past the instance check DEINIT always writes its reset instance. -/
theorem deinitResetsInstance : Obligations.DeinitResetsInstance :=
  fun _ _ => ⟨State.withInst_of_none, fun _ hu => finishes_of_setInst (code := .ready) hu (State.withInst_of_some hu)⟩

/-! ## SETBAUD -/

section
variable {s : State} {i : Nat} {baud : Word} {u : InstState} {c : UartConfig} (hu : s.inst[i]? = some u)
  (hcfg : u.cfg = some c)
include hu hcfg

/-- SETBAUD to rate 0 (42_configuration_ops.md R185). -/
theorem exec_setbaud_of_zero (hbaud : baud = 0) : Rejects (.setbaud i baud) s 2 :=
  (State.withReady_of_cfg hu hcfg).trans (if_pos hbaud)

/-- SETBAUD with a transfer in flight. -/
theorem exec_setbaud_of_inFlight (hbaud : baud ≠ 0) (hflight : InFlight s i u) :
    FaultsWith (.setbaud i baud) s .baudChangeDuringTransfer :=
  (State.withReady_of_cfg hu hcfg).trans ((if_neg hbaud).trans (if_pos (inFlight_iff.mpr hflight)))

/-- SETBAUD with every check passed. -/
theorem exec_setbaud_of_idle (hbaud : baud ≠ 0) (hflight : ¬ InFlight s i u) :
    Finishes (.setbaud i baud) s (rebauded s.params i c baud u) 0 :=
  finishes_of_setInst (code := .ready) hu
    ((State.withReady_of_cfg hu hcfg).trans ((if_neg hbaud).trans (if_neg (mt inFlight_iff.mp hflight))))

end

/-- Settles O25: the outcome by the checks, and ProgramBaud's three fields of BAUD. -/
theorem setbaudReprogramsDivisor : Obligations.SetbaudReprogramsDivisor := by
  intro s i baud cmd
  refine ⟨State.withReady_of_none, fun u hu => ⟨State.withReady_of_uninitialized hu, fun c hcfg =>
    ⟨exec_setbaud_of_zero hu hcfg, exec_setbaud_of_inFlight hu hcfg, fun hbaud hflight => ?_⟩⟩⟩
  exact ⟨_, exec_setbaud_of_idle hu hcfg hbaud hflight, rfl, Prod.ext (osr_programBaud ..) (sbr_programBaud ..),
    bothEdge_programBaud .., fun k _ hsbr hedge hosr => bit_programBaud_other _ _ _ _ hsbr hedge hosr, rfl⟩

end Sys2Proof.Machine

/-! PROOFS of 42_configuration_ops.md: the control commands, the registrations and the status queries. -/

namespace Sys2Proof.Machine

/-! ## Enables -/

/-- Each of the four commands is the shared body at its own bit (42_configuration_ops.md R186 to R189). -/
theorem exec_enable {i k : Nat} {cmd : Instr} {b : Bool}
    (h : (cmd, k, b) ∈ [(Instr.txEnable i, Ctrl.te, true), (Instr.txDisable i, Ctrl.te, false),
      (Instr.rxEnable i, Ctrl.re, true), (Instr.rxDisable i, Ctrl.re, false)]) :
    cmd.inst = i ∧ k < 32 ∧ exec cmd = writeEnable cmd.w0 i k b := by
  simp only [List.mem_cons, List.not_mem_nil, or_false, Prod.mk.injEq] at h
  rcases h with ⟨rfl, rfl, rfl⟩ | ⟨rfl, rfl, rfl⟩ | ⟨rfl, rfl, rfl⟩ | ⟨rfl, rfl, rfl⟩ <;> exact ⟨rfl, by decide, rfl⟩

/-- Settles O26: the two checks, and the one bit of CTRL of the shared body. -/
theorem enablesWriteOneControlBit : Obligations.EnablesWriteOneControlBit := by
  intro s i cmd k b hmem
  obtain ⟨rfl, hk, hexec⟩ := exec_enable hmem
  have hexec := congrFun hexec s
  refine ⟨fun hu => hexec.trans (State.withReady_of_none hu), fun u hu =>
    ⟨fun hcfg => hexec.trans (State.withReady_of_uninitialized hu hcfg), fun hcfg => ?_⟩⟩
  obtain ⟨c, hcfg⟩ := Option.ne_none_iff_exists'.mp hcfg
  exact ⟨setCtrl u k b,
    finishes_of_setInst (code := .ready) hu (hexec.trans (State.withReady_of_cfg hu hcfg)), bit_setBit_same _ _ _ hk,
    (SameBut.refl [k] u.ctrl).setBit k b (List.mem_singleton_self k) hk, rfl⟩

/-! ## Registrations -/

/-! A slot after one slot is written. -/

theorem CallbackSlots.put_err (cb : CallbackSlots) (kind : SlotKind) (h : Word) :
    (cb.put kind h).err = if kind = .error then h else cb.err := by cases kind <;> rfl
theorem CallbackSlots.put_txDone (cb : CallbackSlots) (kind : SlotKind) (h : Word) :
    (cb.put kind h).txDone = if kind = .txDone then h else cb.txDone := by cases kind <;> rfl
theorem CallbackSlots.put_rxDone (cb : CallbackSlots) (kind : SlotKind) (h : Word) :
    (cb.put kind h).rxDone = if kind = .rxDone then h else cb.rxDone := by cases kind <;> rfl

/-- The slot a registration writes: its KIND, or the error slot of REG_ERR_CALLBACK (42_configuration_ops.md R190, R191). -/
def registeredKind : Instr → SlotKind
  | .regCallback _ kind _ => kind
  | _ => .error

section
variable {i : Nat} {h : Word} {cmd : Instr}
  (hmem : cmd ∈ [Instr.regCallback i .error h, .regCallback i .txDone h, .regCallback i .rxDone h, .regErrCallback i h])
include hmem

/-- Each registration is the instance check and one write of its slot. -/
theorem exec_registration :
    cmd.inst = i ∧ ∀ s, exec cmd s = s.withInst cmd.w0 i fun u =>
      .next ((s.setInst i { u with cb := u.cb.put (registeredKind cmd) h }).finish cmd.w0 .ready) := by
  simp only [List.mem_cons, List.not_mem_nil, or_false] at hmem
  rcases hmem with rfl | rfl | rfl | rfl <;> exact ⟨rfl, fun _ => rfl⟩

/-- The registrations by the slot they write. -/
theorem registeredKind_eq_iff :
    (registeredKind cmd = .error ↔ cmd = .regCallback i .error h ∨ cmd = .regErrCallback i h) ∧
    (registeredKind cmd = .txDone ↔ cmd = .regCallback i .txDone h) ∧
    (registeredKind cmd = .rxDone ↔ cmd = .regCallback i .rxDone h) := by
  simp only [List.mem_cons, List.not_mem_nil, or_false] at hmem
  rcases hmem with rfl | rfl | rfl | rfl <;> simp [registeredKind]

end

/-- Settles O27: the instance check, and the slot of the command's kind. -/
theorem registrationWritesOneSlot : Obligations.RegistrationWritesOneSlot := by
  intro s i h cmd hmem
  obtain ⟨rfl, hexec⟩ := exec_registration hmem
  obtain ⟨herr, htx, hrx⟩ := registeredKind_eq_iff hmem
  refine ⟨fun hu => (hexec s).trans (State.withInst_of_none hu), fun u hu =>
    ⟨_, finishes_of_setInst (code := .ready) hu ((hexec s).trans (State.withInst_of_some hu)), rfl, ?_, ?_, ?_⟩⟩
  · exact (CallbackSlots.put_err ..).trans (if_congr herr rfl rfl)
  · exact (CallbackSlots.put_txDone ..).trans (if_congr htx rfl rfl)
  · exact (CallbackSlots.put_rxDone ..).trans (if_congr hrx rfl rfl)

/-! ## Status queries -/

/-! The status a query shows (42_configuration_ops.md R192, R193): Uninitialized without a configuration, Busy in flight, else
the recorded one. -/

section
variable {u : InstState}

theorem visibleTx_of_uninitialized (hcfg : u.cfg = none) : visibleTx u = .uninitialized := if_pos hcfg
theorem visibleTx_of_busy (hcfg : u.cfg ≠ none) (hbusy : u.tx.busy = true) : visibleTx u = .busy :=
  (if_neg hcfg).trans (if_pos hbusy)
theorem visibleTx_of_idle (hcfg : u.cfg ≠ none) (hidle : u.tx.busy = false) : visibleTx u = u.tx.status :=
  (if_neg hcfg).trans (if_neg (Bool.eq_false_iff.mp hidle))
theorem visibleRx_of_uninitialized (hcfg : u.cfg = none) : visibleRx u = .uninitialized := if_pos hcfg
theorem visibleRx_of_busy (hcfg : u.cfg ≠ none) (hbusy : u.rx.busy = true) : visibleRx u = .busy :=
  (if_neg hcfg).trans (if_pos hbusy)
theorem visibleRx_of_idle (hcfg : u.cfg ≠ none) (hidle : u.rx.busy = false) : visibleRx u = u.rx.status :=
  (if_neg hcfg).trans (if_neg (Bool.eq_false_iff.mp hidle))

variable {s : State} {i : Nat} (hu : s.inst[i]? = some u)
include hu

/-- GET_TX_STATUS answers the code of the status it shows, and the progress. -/
theorem exec_getTxStatus {st : TxStatus} (hvisible : visibleTx u = st) : exec (.getTxStatus i) s =
    .next (s.finishWith (Instr.getTxStatus i).w0 (resultPacket .ready st.code u.tx.progress)) :=
  hvisible ▸ State.withInst_of_some hu

/-- GET_RX_STATUS answers the code of the status it shows, and the progress. -/
theorem exec_getRxStatus {st : RxStatus} (hvisible : visibleRx u = st) : exec (.getRxStatus i) s =
    .next (s.finishWith (Instr.getRxStatus i).w0 (resultPacket .ready st.code u.rx.progress)) :=
  hvisible ▸ State.withInst_of_some hu

end

/-- Settles O28: the result packet is computed from the status the query shows. -/
theorem txStatusQueryReports : Obligations.TxStatusQueryReports := by
  intro s i answers
  refine ⟨fun hu => ⟨_, _, State.withInst_of_none hu, by decide, by decide⟩, fun u hu =>
    ⟨fun hcfg => exec_getTxStatus hu (visibleTx_of_uninitialized hcfg), fun hcfg =>
      ⟨fun hbusy => exec_getTxStatus hu (visibleTx_of_busy hcfg hbusy), fun hidle => ?_⟩⟩⟩
  have hrecorded (st : TxStatus) (h : u.tx.status = st) :=
    exec_getTxStatus hu ((visibleTx_of_idle hcfg hidle).trans h)
  exact ⟨hrecorded _, hrecorded _, hrecorded _⟩

/-- Settles O29: the result packet is computed from the status the query shows. -/
theorem rxStatusQueryReports : Obligations.RxStatusQueryReports := by
  intro s i answers
  refine ⟨fun hu => ⟨_, _, State.withInst_of_none hu, by decide, by decide⟩, fun u hu =>
    ⟨fun hcfg => exec_getRxStatus hu (visibleRx_of_uninitialized hcfg), fun hcfg =>
      ⟨fun hbusy => exec_getRxStatus hu (visibleRx_of_busy hcfg hbusy), fun hidle => ?_⟩⟩⟩
  have hrecorded (st : RxStatus) (h : u.rx.status = st) :=
    exec_getRxStatus hu ((visibleRx_of_idle hcfg hidle).trans h)
  exact ⟨hrecorded _, hrecorded _, hrecorded _, hrecorded _, hrecorded _, hrecorded _, hrecorded _⟩

end Sys2Proof.Machine

/-! PROOFS of 43_transfer_ops.md: the acceptance checks as equations, and the transfer commands. -/

namespace Sys2Proof.Machine

/-! ## Writing one instance -/

/-- The instance just written. -/
theorem State.setInst_inst_self {s : State} {i : Nat} {u : InstState} (hu : s.inst[i]? = some u) (v : InstState) :
    (s.setInst i v).inst[i]? = some v :=
  List.getElem?_set_self (List.getElem?_eq_some_iff.mp hu).1

/-- Everything outside the written instance is as before. -/
theorem onlyInst_setInst (s : State) (i : Nat) (v : InstState) : OnlyInst i s (s.setInst i v) :=
  ⟨List.length_set, fun _ hj => List.getElem?_set_ne hj.symm, rfl, rfl, rfl, fun _ => rfl, rfl, rfl⟩

/-! ## The acceptance checks -/

/-- With no handler active the issuing context is FG (60_exceptions.md R332). -/
theorem State.ctx_of_ic_none {s : State} (hic : s.ic = .none) : s.ctx = .fg := by
  rw [State.ctx, hic]

/-- With a handler active the issuing context is IC. -/
theorem State.ctx_of_ic_ne_none {s : State} (hic : s.ic ≠ .none) : s.ctx = .ic := by
  unfold State.ctx
  cases h : s.ic with
  | none => exact absurd h hic
  | active => rfl

/-- The test for active(i, tx) is exact (43_transfer_ops.md R220). -/
theorem txActive_iff {s : State} {i : Nat} {u : InstState} : s.txActive i u = true ↔ SendActive s i u := by
  rw [State.txActive, Bool.or_eq_true, sendsOn_iff]

/-- The test for active(i, rx) is exact. -/
theorem rxActive_iff {s : State} {i : Nat} {u : InstState} : s.rxActive i u = true ↔ RecvActive s i u := by
  rw [State.rxActive, Bool.or_eq_true, receivesOn_iff]

section
variable {s : State} {w0 : Word} {i : Nat} {blocking : Bool} {active : State → Nat → InstState → Bool} {addr len : Word}
  {rest : InstState → UartConfig → Result}

/-- A blocking command from interrupt context records the fault before every other check (R220). -/
theorem State.withArm_of_handler (hblocking : blocking = true) (hic : s.ic ≠ .none) :
    s.withArm w0 i blocking active addr len rest = .next (s.raiseFault .blockingInInterruptContext) :=
  if_pos ⟨hblocking, State.ctx_of_ic_ne_none hic⟩

/-- From a context that may issue the command: the instance and initialization checks, the buffer, then the direction. -/
theorem State.withArm_eq_withReady (hctx : blocking = false ∨ s.ic = .none) :
    s.withArm w0 i blocking active addr len rest = s.withReady w0 i fun u c =>
      if BufferOk c addr len then if active s i u = true then .next (s.finish w0 .busy) else rest u c
      else .next (s.finish w0 .invalidArgument) := by
  have hissues : ¬ (blocking = true ∧ s.ctx = .ic) := by
    rcases hctx with h | h
    · simp [h]
    · simp [State.ctx_of_ic_none h]
  have hbuf (c : UartConfig) : BufferOk c addr len ↔ ¬ (addr = 0 ∨ len = 0) ∧ ¬ len.toNat % stride (effw c) ≠ 0 ∧
      ¬ addr.toNat + len.toNat > 2 ^ 32 := by
    rw [not_or, not_not, not_lt, and_assoc]
  rw [State.withArm, if_neg hissues]
  congr 1
  funext u c
  simp only [hbuf]
  split_ifs <;> tauto

/-- Every check passed: the command goes on. -/
theorem State.withArm_of_accepted {u : InstState} {c : UartConfig} (hctx : blocking = false ∨ s.ic = .none)
    (hu : s.inst[i]? = some u) (hcfg : u.cfg = some c) (hbuf : BufferOk c addr len) (hidle : ¬ active s i u = true) :
    s.withArm w0 i blocking active addr len rest = rest u c := by
  rw [State.withArm_eq_withReady hctx, State.withReady_of_cfg hu hcfg, if_pos hbuf, if_neg hidle]

end

/-- Each of the four transfer commands is the acceptance checks of its direction and then a part of its own. -/
theorem exec_transfer {i : Nat} {addr len : Word} {cmd : Instr} {blocking sends : Bool}
    (hmem : (cmd, blocking, sends) ∈ [(Instr.sendBlocking i addr len, true, true), (Instr.sendAsync i addr len, false, true),
      (Instr.recvBlocking i addr len, true, false), (Instr.recvAsync i addr len, false, false)]) (s : State) :
    ∃ rest, exec cmd s =
      s.withArm cmd.w0 i blocking (if sends then State.txActive else State.rxActive) addr len rest := by
  simp only [List.mem_cons, List.not_mem_nil, or_false, Prod.mk.injEq] at hmem
  rcases hmem with ⟨rfl, rfl, rfl⟩ | ⟨rfl, rfl, rfl⟩ | ⟨rfl, rfl, rfl⟩ | ⟨rfl, rfl, rfl⟩ <;> exact ⟨_, rfl⟩

/-- Settles O30: the context check, the two shared checks, the buffer and the direction, each by the equation of the checks. -/
theorem armChecksInOrder : Obligations.ArmChecksInOrder := by
  intro s i addr len cmd blocking sends hmem
  obtain ⟨rest, hexec⟩ := exec_transfer hmem s
  refine ⟨fun hblocking hic => hexec.trans (State.withArm_of_handler hblocking hic), fun hctx => ?_⟩
  replace hexec := hexec.trans (State.withArm_eq_withReady hctx)
  refine ⟨fun hu => hexec.trans (State.withReady_of_none hu), fun u hu =>
    ⟨fun hcfg => hexec.trans (State.withReady_of_uninitialized hu hcfg), fun c hcfg => ?_⟩⟩
  replace hexec := hexec.trans (State.withReady_of_cfg hu hcfg)
  refine ⟨fun hbuf => hexec.trans (if_neg hbuf), ?send, ?receive⟩
  case send =>
    rintro hbuf rfl hactive
    exact hexec.trans ((if_pos hbuf).trans (if_pos (txActive_iff.mpr hactive)))
  case receive =>
    rintro hbuf rfl hactive
    exact hexec.trans ((if_pos hbuf).trans (if_pos (rxActive_iff.mpr hactive)))

/-! ## Accepted sends -/

/-- Settles O31: the checks passed, SEND_BLOCKING writes TE and starts the loop. -/
theorem sendBlockingEntersLoop : Obligations.SendBlockingEntersLoop := by
  intro s i addr len u c hic hu hcfg hbuf hidle
  exact ⟨_, setCtrl u Ctrl.te true,
    State.withArm_of_accepted (.inr hic) hu hcfg hbuf (mt txActive_iff.mp hidle), State.setInst_inst_self hu _,
    onlyInst_setInst { s with fg := .sendBlk i addr len (effw c) 0 .waitTdre } i _, rfl,
    bit_setBit_same _ _ _ (by decide), (SameBut.refl _ u.ctrl).setBit _ _ (by decide) (by decide), rfl⟩

/-- SEND_ASYNC sets TE and TIE (43_transfer_ops.md R223). -/
theorem bits_armedTx_ctrl (addr len : Word) (u : InstState) :
    ∀ k ∈ [Ctrl.te, Ctrl.tie], bit (armedTx addr len u).ctrl k = true := by
  simp (disch := decide) only [bit, armedTx, getLsbD_setBit]
  simp

/-- Settles O32: the checks passed, SEND_ASYNC arms the instance from either context. -/
theorem sendAsyncArmsTransmit : Obligations.SendAsyncArmsTransmit := by
  intro s i addr len u c hu hcfg hbuf hidle
  have hbits := bits_armedTx_ctrl addr len u
  exact ⟨armedTx addr len u,
    finishes_of_setInst (code := .busy) hu
      (State.withArm_of_accepted (.inl rfl) hu hcfg hbuf (mt txActive_iff.mp hidle)),
    rfl, hbits _ (by decide), hbits _ (by decide),
    ((SameBut.refl _ u.ctrl).setBit _ _ (by decide) (by decide)).setBit _ _ (by decide) (by decide), rfl, rfl⟩

/-! ## Accepted receives -/

/-- A blocking receive keeps a status that is no pending error (43_transfer_ops.md R224). -/
theorem RxStatus.cleared_of_ne_error {st : RxStatus} (h : ∀ k, st ≠ .error k) : st.cleared = st := by
  cases st with
  | error k => exact absurd rfl (h k)
  | uninitialized | ready | busy => rfl

/-- Settles O33: the checks passed, RECV_BLOCKING writes RE and the status and starts the loop. -/
theorem recvBlockingEntersLoop : Obligations.RecvBlockingEntersLoop := by
  intro s i addr len u c hic hu hcfg hbuf hidle
  refine ⟨_, _, State.withArm_of_accepted (.inr hic) hu hcfg hbuf (mt rxActive_iff.mp hidle),
    State.setInst_inst_self hu _, onlyInst_setInst { s with fg := .recvBlk i addr len (effw c) 0 } i _, rfl,
    bit_setBit_same _ _ _ (by decide), (SameBut.refl _ u.ctrl).setBit _ _ (by decide) (by decide), ?_,
    RxStatus.cleared_of_ne_error, rfl, rfl⟩
  rintro ⟨k, hk⟩
  exact congrArg RxStatus.cleared hk

/-- RECV_ASYNC sets the four error enables, RE and RIE (R226). -/
theorem bits_armedRx_ctrl (addr len : Word) (u : InstState) :
    ∀ k ∈ [Ctrl.orie, Ctrl.neie, Ctrl.feie, Ctrl.peie, Ctrl.re, Ctrl.rie], bit (armedRx addr len u).ctrl k = true := by
  simp (disch := decide) only [bit, armedRx, withErrorEnables, getLsbD_setBit]
  simp

/-- Settles O34: the checks passed, RECV_ASYNC arms the instance from either context. -/
theorem recvAsyncArmsReceive : Obligations.RecvAsyncArmsReceive := by
  intro s i addr len u c hu hcfg hbuf hidle
  have hbits := bits_armedRx_ctrl addr len u
  exact ⟨armedRx addr len u,
    finishes_of_setInst (code := .busy) hu
      (State.withArm_of_accepted (.inl rfl) hu hcfg hbuf (mt rxActive_iff.mp hidle)),
    rfl, hbits _ (by decide), hbits _ (by decide), hbits _ (by decide), hbits _ (by decide), hbits _ (by decide),
    hbits _ (by decide),
    (((SameBut.refl _ u.ctrl).withErrorEnables _ (by decide)).setBit _ _ (by decide) (by decide)).setBit
      _ _ (by decide) (by decide), rfl, rfl⟩

/-! ## Aborts -/

/-- ABORT_SEND clears TIE and TE (43_transfer_ops.md R227). -/
theorem bits_abortedTx_ctrl (u : InstState) : ∀ k ∈ [Ctrl.tie, Ctrl.te], bit (abortedTx u).ctrl k = false := by
  simp (disch := decide) only [bit, abortedTx, getLsbD_setBit]
  simp

/-- ABORT_SEND sets TDRE, and TC where the shift register is idle. -/
theorem flags_abortedTx (u : InstState) : bit (abortedTx u).stat Stat.tdre = true ∧
    bit (abortedTx u).stat Stat.tc = if u.txShift = none then true else bit u.stat Stat.tc := by
  unfold abortedTx
  dsimp only
  split
  · exact ⟨(bit_setBit_other _ _ _ _ (by decide) (by decide)).trans (bit_setBit_same _ _ _ (by decide)),
      bit_setBit_same _ _ _ (by decide)⟩
  · exact ⟨bit_setBit_same _ _ _ (by decide), bit_setBit_other _ _ _ _ (by decide) (by decide)⟩

/-- Settles O35: the two shared checks, and the bits of the aborted instance. -/
theorem abortSendClearsTransmit : Obligations.AbortSendClearsTransmit := by
  intro s i
  refine ⟨State.withReady_of_none, fun u hu => ⟨State.withReady_of_uninitialized hu, fun hcfg => ?_⟩⟩
  obtain ⟨c, hcfg⟩ := Option.ne_none_iff_exists'.mp hcfg
  have hbits := bits_abortedTx_ctrl u
  obtain ⟨htdre, htc⟩ := flags_abortedTx u
  exact ⟨abortedTx u, finishes_of_setInst (code := .ready) hu (State.withReady_of_cfg hu hcfg), rfl,
    hbits _ (by decide), hbits _ (by decide),
    ((SameBut.refl _ u.ctrl).setBit _ _ (by decide) (by decide)).setBit _ _ (by decide) (by decide), htdre, htc,
    (sameBut_abortedTx_stat u).mono (by decide), rfl⟩

/-- The receive path is off: RIE, the error enables and RE are clear (R228). -/
theorem bits_withReceiveOff (w : Word) :
    ∀ k ∈ [Ctrl.rie, Ctrl.orie, Ctrl.neie, Ctrl.feie, Ctrl.peie, Ctrl.re], bit (withReceiveOff w) k = false :=
  List.forall_mem_append.mpr
    ⟨rxEnables_withReceiveOff w, List.forall_mem_singleton.mpr (bit_setBit_same _ _ _ (by decide))⟩

/-- Settles O36: the two shared checks, and the bits of the aborted instance. -/
theorem abortRecvClearsReceive : Obligations.AbortRecvClearsReceive := by
  intro s i
  refine ⟨State.withReady_of_none, fun u hu => ⟨State.withReady_of_uninitialized hu, fun hcfg => ?_⟩⟩
  obtain ⟨c, hcfg⟩ := Option.ne_none_iff_exists'.mp hcfg
  exact ⟨abortedRx u, finishes_of_setInst (code := .ready) hu (State.withReady_of_cfg hu hcfg), rfl,
    bits_withReceiveOff u.ctrl, (sameBut_withReceiveOff u.ctrl).mono (by decide), bit_setBit_same _ _ _ (by decide),
    (SameBut.refl _ u.stat).setBit _ _ (by decide) (by decide), rfl⟩

end Sys2Proof.Machine

/-! PROOFS of 43_transfer_ops.md: the blocking loops. -/

namespace Sys2Proof.Machine

/-! ## Steps of FG's loop -/

/-- With no fault recorded, FG takes the step its loop offers and no other. -/
theorem takes_foreground_iff {s t : State} (hfaults : s.faults = []) :
    Takes s .foreground t ↔ foregroundStep s = some t :=
  ⟨fun h => eq_some_of_map_next h.2, fun h => ⟨hfaults, by rw [offer, h]; rfl⟩⟩

/-- A loop that offers no step is not taken anywhere. -/
theorem not_takes_foreground {s : State} (h : foregroundStep s = none) (t : State) : ¬ Takes s .foreground t := by
  rintro ⟨-, hoffer⟩
  rw [eq_some_of_map_next hoffer] at h
  cases h

section
variable {s : State} {i : Nat} {addr len : Word} {e idx : Nat} {u : InstState} (hic : s.ic = .none)
  (hu : s.inst[i]? = some u)
include hic hu

/-- SendBlkData waits for TDRE (43_transfer_ops.md R222). -/
theorem foregroundStep_of_waitTdre (hfg : s.fg = .sendBlk i addr len e idx .waitTdre) : foregroundStep s =
    if bit u.stat Stat.tdre then sendBlkData i addr len e idx u s else none := by
  simp only [foregroundStep, foregroundEnabled, hic, hfg, hu, decide_true, Bool.true_and, Option.any_some,
    Option.bind_some]

/-- SendBlkDone waits for TC (R222). -/
theorem foregroundStep_of_waitTc (hfg : s.fg = .sendBlk i addr len e idx .waitTc) : foregroundStep s =
    if bit u.stat Stat.tc then some (sendBlkDone i addr len e idx u s) else none := by
  simp only [foregroundStep, foregroundEnabled, hic, hfg, hu, decide_true, Bool.true_and, Option.any_some,
    Option.map_some]

/-- RecvBlkData waits for RDRF (R225). -/
theorem foregroundStep_of_recvBlk (hfg : s.fg = .recvBlk i addr len e idx) : foregroundStep s =
    if bit u.stat Stat.rdrf then recvBlkData i addr len e idx u s else none := by
  simp only [foregroundStep, foregroundEnabled, hic, hfg, hu, decide_true, Bool.true_and, Option.any_some,
    Option.bind_some]

end

/-- A Ready result returned to FG. -/
theorem State.finish_trace_of_ic_none {s : State} (hic : s.ic = .none) (w0 : Word) :
    (s.finish w0 .ready).trace = s.trace ++ [.result .fg w0 ⟨0, 0⟩] := by
  rw [State.finish_trace, State.ctx_of_ic_none hic]
  rfl

/-! ## The blocking send -/

/-- Settles O37: the phase and its flag decide the step; the load, or whether characters are left, decides what it does. -/
theorem blockingSendLoop : Obligations.BlockingSendLoop := by
  intro s i addr len e idx u hfaults hic hu
  refine ⟨fun hfg => ?data, fun hfg => ?done⟩
  case data =>
    have hstep := foregroundStep_of_waitTdre hic hu hfg
    refine ⟨fun htdre => not_takes_foreground (hstep.trans (if_neg (Bool.eq_false_iff.mp htdre))),
      fun htdre hload => not_takes_foreground ?stuck, fun x htdre hload => ?loads⟩
    case stuck => rw [hstep, if_pos htdre, sendBlkData, hload, Option.map_none]
    case loads =>
      rw [if_pos htdre, sendBlkData, hload, Option.map_some] at hstep
      exact ⟨_, dataWrite u x, (takes_foreground_iff hfaults).mpr hstep, State.setInst_inst_self hu _,
        onlyInst_setInst { s with fg := .sendBlk i addr len e idx .waitTc } i _, rfl, BitVec.toNat_ofNat x 10,
        (bit_setBit_other _ _ _ _ (by decide) (by decide)).trans (bit_setBit_same _ _ _ (by decide)),
        bit_setBit_same _ _ _ (by decide),
        ((SameBut.refl _ u.stat).setBit _ _ (by decide) (by decide)).setBit _ _ (by decide) (by decide), rfl⟩
  case done =>
    have hstep := foregroundStep_of_waitTc hic hu hfg
    refine ⟨fun htc => not_takes_foreground (hstep.trans (if_neg (Bool.eq_false_iff.mp htc))),
      fun htc hmore => (takes_foreground_iff hfaults).mpr ?next, fun htc hlast => ?ends⟩
    case next => rw [hstep, if_pos htc, sendBlkDone, if_neg hmore]
    case ends =>
      rw [if_pos htc, sendBlkDone, if_pos hlast] at hstep
      exact ⟨_, setCtrl u Ctrl.te false, (takes_foreground_iff hfaults).mpr hstep, State.setInst_inst_self hu _,
        onlyInst_setInst { s with fg := .idle } i _, State.finish_trace_of_ic_none hic _,
        bit_setBit_same _ _ _ (by decide), (SameBut.refl _ u.ctrl).setBit _ _ (by decide) (by decide), rfl⟩

/-! ## The blocking receive -/

/-- CodecStore writes no byte outside the stride (41_framing_codec.md R163). -/
theorem State.byteAt_codecStore_outside {s t : State} {a v e x : Nat} (hm : Memory.wf s.mem) (he : e ≤ 16)
    (h : s.codecStore a v e = some t) (hx : x < a ∨ a + stride e ≤ x) : t.byteAt x = s.byteAt x := by
  rcases Nat.lt_or_ge 8 e with hgt | hle
  · rw [stride_of_gt hgt] at hx
    obtain ⟨-, -, -, hkept⟩ := State.byteAt_codecStore_of_gt hm hgt he h
    exact hkept x (by omega) (by omega)
  · rw [stride_of_le hle] at hx
    obtain ⟨-, -, hkept⟩ := State.byteAt_codecStore_of_le hm hle h
    exact hkept x (by omega)

/-- Settles O38: RDRF and the store decide the step; whether characters are left decides how the loop goes on. -/
theorem blockingReceiveStoresCharacter : Obligations.BlockingReceiveStoresCharacter := by
  intro s i addr len e idx u hfaults hic hfg hu hm _ he
  have hstep := foregroundStep_of_recvBlk hic hu hfg
  refine ⟨fun hrdrf => not_takes_foreground (hstep.trans (if_neg (Bool.eq_false_iff.mp hrdrf))),
    fun hrdrf hstore => not_takes_foreground ?stuck, fun m hrdrf hstore => ?stores⟩
  case stuck => rw [hstep, if_pos hrdrf, recvBlkData, dataReadValue, hstore, Option.map_none]
  case stores =>
    have houtside (x : Nat) := State.byteAt_codecStore_outside (x := x) hm (by omega) hstore
    have hclear : bit (dataRead u).stat Stat.rdrf = false := bit_setBit_same _ _ _ (by decide)
    have hkeep : SameBut [Stat.rdrf] u.stat (dataRead u).stat :=
      (SameBut.refl _ u.stat).setBit _ _ (by decide) (by decide)
    rw [if_pos hrdrf, recvBlkData, dataReadValue, hstore, Option.map_some] at hstep
    obtain ⟨mem, rfl⟩ := State.codecStore_next hstore
    by_cases hlast : idx + stride e = len.toNat
    · rw [if_pos hlast] at hstep
      exact ⟨_, setCtrl (dataRead u) Ctrl.re false, (takes_foreground_iff hfaults).mpr hstep,
        State.setInst_inst_self hu _, fun _ => rfl, houtside, hclear, hkeep, fun hmore => absurd hlast hmore,
        fun _ => ⟨onlyInst_setInst { s with mem := mem, fg := .idle } i _, State.finish_trace_of_ic_none hic _,
          bit_setBit_same _ _ _ (by decide), (SameBut.refl _ u.ctrl).setBit _ _ (by decide) (by decide), rfl⟩⟩
    · rw [if_neg hlast] at hstep
      exact ⟨_, dataRead u, (takes_foreground_iff hfaults).mpr hstep, State.setInst_inst_self hu _, fun _ => rfl,
        houtside, hclear, hkeep,
        fun _ => ⟨onlyInst_setInst { s with mem := mem, fg := .recvBlk i addr len e (idx + stride e) } i _, rfl, rfl⟩,
        fun h => absurd h hlast⟩

end Sys2Proof.Machine

/-! PROOFS of 44_interrupt_dispatcher.md: when a cause is serviced, the three services, the classifier. -/

namespace Sys2Proof.Machine

/-! ## Enabling -/

/-- The request of an instance, by its six flag-and-enable pairs (44_interrupt_dispatcher.md R260). -/
theorem request_iff {u : InstState} : request u = true ↔
    (bit u.stat Stat.rdrf = true ∧ bit u.ctrl Ctrl.rie = true) ∨
      (bit u.stat Stat.tdre = true ∧ bit u.ctrl Ctrl.tie = true) ∨
      (bit u.stat Stat.or = true ∧ bit u.ctrl Ctrl.orie = true) ∨
      (bit u.stat Stat.nf = true ∧ bit u.ctrl Ctrl.neie = true) ∨
      (bit u.stat Stat.fe = true ∧ bit u.ctrl Ctrl.feie = true) ∨
      (bit u.stat Stat.pf = true ∧ bit u.ctrl Ctrl.peie = true) := by
  simp only [request, rxReady, txReady, errAny, Bool.or_eq_true, Bool.and_eq_true, or_assoc]

/-- The test for DISPATCH(i) is exact (R261). -/
theorem dispatchEnabled_iff {s : State} {i : Nat} : dispatchEnabled s i = true ↔
    s.ic = .none ∧ ∃ u, s.inst[i]? = some u ∧ u.lineEn = true ∧ request u = true := by
  simp only [dispatchEnabled, Bool.and_eq_true, decide_eq_true_eq, Option.any_eq_true]

/-- Settles O39: the test of the step, with the request written out in flags and enables. -/
theorem dispatchEnabledByCauseAndLine : Obligations.DispatchEnabledByCauseAndLine := by
  intro s i
  refine dispatchEnabled_iff.trans ?_
  simp only [request_iff]

/-! ## The classifier -/

/-- In a list without repetitions a search finds the element whose property no earlier element has. -/
theorem find?_eq_some_iff_idxOf {α : Type} [DecidableEq α] {l : List α} (hl : l.Nodup) {a : α} (ha : a ∈ l)
    (p : α → Bool) : l.find? p = some a ↔ p a = true ∧ ∀ b, l.idxOf b < l.idxOf a → p b = false := by
  have hpos := List.idxOf_lt_length_iff.mpr ha
  rw [List.find?_eq_some_iff_getElem]
  refine and_congr_right fun _ => ⟨?_, fun hfirst => ⟨_, hpos, List.getElem_idxOf hpos, fun j hj => ?_⟩⟩
  · rintro ⟨n, hn, rfl, hfirst⟩ b hb
    rw [hl.idxOf_getElem] at hb
    simpa [List.getElem_idxOf] using hfirst _ hb
  · rw [hfirst l[j] (by rwa [hl.idxOf_getElem]), Bool.not_false]

/-- A legal priority lists every kind (00_scope.md R10). -/
theorem mem_errPriority_of_wf {p : Params} {n : Nat} (h : Params.wf p n) (k : ErrKind) : k ∈ p.errPriority := by
  obtain ⟨-, -, hoverrun, hframing, hparity, hnoise⟩ := h
  cases k <;> assumption

/-- Under a legal priority Classify gives none exactly where no error flag is set (R266, log 10). -/
theorem classify_eq_none_iff {p : Params} {n : Nat} (h : Params.wf p n) {stat : Word} :
    classify p.errPriority stat = none ↔ bit stat Stat.or = false ∧ bit stat Stat.fe = false ∧
      bit stat Stat.pf = false ∧ bit stat Stat.nf = false := by
  simp only [classify, List.find?_eq_none, Bool.not_eq_true]
  refine ⟨fun hnone => ?_, fun ⟨hor, hfe, hpf, hnf⟩ k _ => ?_⟩
  · have hflag (k : ErrKind) := hnone k (mem_errPriority_of_wf h k)
    exact ⟨hflag .overrun, hflag .framing, hflag .parity, hflag .noise⟩
  · cases k <;> assumption

/-- Settles O43: Classify searches the priority in order, and a legal priority lists every kind once. -/
theorem classifierFollowsPriority : Obligations.ClassifierFollowsPriority := by
  refine ⟨rfl, rfl, rfl, rfl, rfl, rfl, rfl, rfl, fun p n stat hwf => ⟨fun k => ?_, classify_eq_none_iff hwf⟩⟩
  have hmem := mem_errPriority_of_wf hwf k
  obtain ⟨-, hnodup, -⟩ := hwf
  exact find?_eq_some_iff_idxOf hnodup hmem _

/-! ## One invocation -/

/-- An agent that answers a state or nothing is taken exactly to the state it answers. -/
theorem takes_iff_of_offer {s t : State} {ev : Event} {o : Option State} (hfaults : s.faults = [])
    (hoffer : offer ev s = o.map .next) : Takes s ev t ↔ o = some t :=
  ⟨fun h => eq_some_of_map_next (hoffer.symm.trans h.2), fun h => ⟨hfaults, by rw [hoffer, h]; rfl⟩⟩

/-- An instance whose line is enabled is initialized (42_configuration_ops.md R182, R184). -/
theorem InstOk.cfg_of_lineEn {p : Params} {i : Nat} {u : InstState} (h : InstOk p i u) (hline : u.lineEn = true) :
    ∃ c, u.cfg = some c := by
  refine Option.ne_none_iff_exists'.mp fun hnone => ?_
  obtain ⟨-, -, hoff, -⟩ := h.cfg.1 hnone
  exact Bool.false_ne_true (hoff.symm.trans hline)

/-- A transfer in flight has room for a whole character (10_state.md R36). -/
theorem BufferRuns.room {Status : Type} {cfg : Option UartConfig} {lineEn : Bool} {b : TransferBuffer Status}
    {c : UartConfig} (h : BufferRuns cfg lineEn b) (hcfg : cfg = some c) :
    b.progress.toNat + stride (effw c) ≤ b.len.toNat := by
  obtain ⟨-, -, hlt, hall⟩ := h
  obtain ⟨hprogress, hlen, -⟩ := hall c hcfg
  exact Nat.ModEq.add_le_of_lt (hprogress.trans hlen.symm) hlt

/-- With room left the progress does not wrap. -/
theorem toNat_progress_add {progress len : Word} {n : Nat} (hroom : progress.toNat + n ≤ len.toNat) :
    (BitVec.ofNat 32 (progress.toNat + n)).toNat = progress.toNat + n := by
  rw [BitVec.toNat_ofNat, Nat.mod_eq_of_lt (hroom.trans_lt len.isLt)]

/-- With room left the new progress is the length exactly at the last character. -/
theorem progress_add_eq_len_iff {progress len : Word} {n : Nat} (hroom : progress.toNat + n ≤ len.toNat) :
    BitVec.ofNat 32 (progress.toNat + n) = len ↔ progress.toNat + n = len.toNat := by
  rw [← BitVec.toNat_inj, toNat_progress_add hroom]

/-- Where DISPATCH(i) is enabled, the service of its instance decides the step (R261, R262). -/
theorem takes_dispatch_iff {s t : State} {i : Nat} {u : InstState} (hfaults : s.faults = []) (hic : s.ic = .none)
    (hu : s.inst[i]? = some u) (hline : u.lineEn = true) (hrequest : request u = true) :
    Takes s (.dispatch i) t ↔ service i u s = some t := by
  refine takes_iff_of_offer hfaults ?_
  rw [offer, dispatchStep, if_pos (dispatchEnabled_iff.mpr ⟨hic, u, hu, hline, hrequest⟩), hu, Option.bind_some]

/-- A firing from outside a handler starts the handler exactly where the slot is not empty (R267). -/
theorem fire_ic_of_none {s : State} (hic : s.ic = .none) (i : Nat) (h : Word) (ev : CallbackEvent) :
    (h = 0 → (s.fire i h ev).ic = .none) ∧
      (h ≠ 0 → (s.fire i h ev).ic = .active i ev (Params.handler s.params i h ev)) :=
  ⟨fun hempty => (if_pos hempty).trans hic, fun hfull => if_neg hfull⟩

/-- A service that writes its instance and fires changes the instance, the handler and the log alone. -/
theorem onlyInst_fire (s : State) (i : Nat) (v : InstState) (h : Word) (ev : CallbackEvent) :
    OnlyInst i { s with ic := ((s.setInst i v).fire i h ev).ic } ((s.setInst i v).fire i h ev) :=
  onlyInst_setInst { s with ic := ((s.setInst i v).fire i h ev).ic } i v

/-! ## The receive-ready service -/

/-- Receive-ready is serviced first (R262); with a configuration and room left, the store decides (R263). -/
theorem service_of_rxReady {s : State} {i : Nat} {u : InstState} {c : UartConfig} (hready : rxReady u = true)
    (hcfg : u.cfg = some c) (hroom : u.rx.progress.toNat + stride (effw c) ≤ u.rx.len.toNat) : service i u s =
      (s.codecStore (u.rx.addr.toNat + u.rx.progress.toNat) u.rdr.toNat (effw c)).map fun t =>
        if u.rx.progress.toNat + stride (effw c) = u.rx.len.toNat then
          (t.setInst i (rxCompleted (rxServed (effw c) u))).fire i u.cb.rxDone .rxDone
        else t.setInst i (rxServed (effw c) u) := by
  simp only [service, hready, if_true, rxService, hcfg, if_neg (Nat.not_lt.mpr hroom)]
  rfl

/-- Settles O40: the store decides whether the character is taken, and the room left whether it is the last. -/
theorem receiveServiceStoresCharacter : Obligations.ReceiveServiceStoresCharacter := by
  intro s i u hinv hfaults hic hu hline hrdrf hrie
  have hready : rxReady u = true := Bool.and_eq_true_iff.mpr ⟨hrdrf, hrie⟩
  have hok := hinv.instOk hu
  have hbusy := hok.rx_busy_of_ready hready
  obtain ⟨c, hcfg⟩ := hok.cfg_of_lineEn hline
  have hroom := (hok.rx.runs hbusy).room hcfg
  have hend := progress_add_eq_len_iff hroom
  have htakes (t : State) := takes_dispatch_iff (t := t) hfaults hic hu hline (request_iff.mpr (.inl ⟨hrdrf, hrie⟩))
  simp only [service_of_rxReady hready hcfg hroom] at htakes
  refine ⟨c, hcfg, fun hstore t => ?stuck, fun m hstore => ?stores⟩
  case stuck => simp [htakes, hstore]
  case stores =>
    have hmem : Memory.wf s.mem := by obtain ⟨-, -, -, hmem, -⟩ := hinv; exact hmem
    have heffw := effw_bounds (hok.cfg.2 c hcfg).1
    have houtside (x : Nat) := State.byteAt_codecStore_outside (x := x) hmem (by omega) hstore
    have hclear : bit (setBit u.stat Stat.rdrf false) Stat.rdrf = false := bit_setBit_same _ _ _ (by decide)
    have hkeep : SameBut [Stat.rdrf] u.stat (setBit u.stat Stat.rdrf false) :=
      (SameBut.refl _ u.stat).setBit _ _ (by decide) (by decide)
    simp only [hstore, Option.map_some, Option.some.injEq] at htakes
    obtain ⟨mem, rfl⟩ := State.codecStore_next hstore
    by_cases hlast : u.rx.progress.toNat + stride (effw c) = u.rx.len.toNat
    · have hfire := fire_ic_of_none (s := State.setInst { s with mem := mem } i (rxCompleted (rxServed (effw c) u))) hic i
        u.cb.rxDone .rxDone
      exact ⟨_, rxCompleted (rxServed (effw c) u), (htakes _).mpr (if_pos hlast), State.setInst_inst_self hu _,
        onlyInst_fire { s with mem := mem } i _ _ _, fun _ => rfl, houtside, hclear, hkeep, rfl, rfl,
        toNat_progress_add hroom, rfl, fun hmore => absurd (hend.mpr hlast) hmore,
        fun _ => ⟨bits_withReceiveOff u.ctrl, (sameBut_withReceiveOff u.ctrl).mono (by decide), rfl,
          fun h => if_pos h, fun h => if_neg h, rfl, hfire⟩⟩
    · exact ⟨_, rxServed (effw c) u, (htakes _).mpr (if_neg hlast), State.setInst_inst_self hu _,
        onlyInst_setInst { s with mem := mem } i _, fun _ => rfl, houtside, hclear, hkeep, rfl, rfl,
        toNat_progress_add hroom, rfl, fun _ => ⟨rfl, hbusy, rfl, hic, rfl⟩, fun h => absurd (hend.mp h) hlast⟩

/-! ## The transmit-ready service -/

/-- A loaded character fits the effective width (41_framing_codec.md R162). -/
theorem State.codecLoad_lt {s : State} {a e x : Nat} (h : s.codecLoad a e = some x) : x < 2 ^ e := by
  have hcut {admitted : Bool} {y : Nat} (h : (if admitted then some (y % 2 ^ e) else none) = some x) : x < 2 ^ e := by
    obtain ⟨-, h⟩ := Option.ite_none_right_eq_some.mp h
    cases h
    exact Nat.mod_lt _ (Nat.two_pow_pos e)
  rcases Nat.lt_or_ge 8 e with hgt | hle
  · exact hcut ((s.codecLoad_of_gt a hgt).symm.trans h)
  · exact hcut ((s.codecLoad_of_le a hle).symm.trans h)

/-- A data write clears TDRE and TC (45_line_side.md R291). -/
theorem flags_dataWrite (u : InstState) (v : Nat) :
    bit (dataWrite u v).stat Stat.tdre = false ∧ bit (dataWrite u v).stat Stat.tc = false :=
  ⟨(bit_setBit_other _ _ _ _ (by decide) (by decide)).trans (bit_setBit_same _ _ _ (by decide)),
    bit_setBit_same _ _ _ (by decide)⟩

/-- A data write writes no other flag. -/
theorem sameBut_dataWrite_stat (u : InstState) (v : Nat) : SameBut [Stat.tdre, Stat.tc] u.stat (dataWrite u v).stat :=
  ((SameBut.refl _ u.stat).setBit _ _ (by decide) (by decide)).setBit _ _ (by decide) (by decide)

/-- Transmit-ready is serviced where receive-ready does not hold (R262); with a configuration and room left, the load decides
(R264). -/
theorem service_of_txReady {s : State} {i : Nat} {u : InstState} {c : UartConfig} (hrx : rxReady u = false)
    (hready : txReady u = true) (hcfg : u.cfg = some c)
    (hroom : u.tx.progress.toNat + stride (effw c) ≤ u.tx.len.toNat) : service i u s =
      (s.codecLoad (u.tx.addr.toNat + u.tx.progress.toNat) (effw c)).map fun v =>
        if u.tx.progress.toNat + stride (effw c) = u.tx.len.toNat then
          (s.setInst i (txCompleted (txServed (effw c) v u))).fire i u.cb.txDone .txDone
        else s.setInst i (txServed (effw c) v u) := by
  simp only [service, hrx, hready, Bool.false_eq_true, if_false, if_true, txService, hcfg, if_neg (Nat.not_lt.mpr hroom)]
  rfl

/-- Settles O41: the load decides whether a character is sent, and the room left whether it is the last. -/
theorem transmitServiceLoadsCharacter : Obligations.TransmitServiceLoadsCharacter := by
  intro s i u hinv hfaults hic hu hline hrx htdre htie
  have hready : txReady u = true := Bool.and_eq_true_iff.mpr ⟨htdre, htie⟩
  have hok := hinv.instOk hu
  have hbusy := hok.tx_busy_of_ready hready
  obtain ⟨c, hcfg⟩ := hok.cfg_of_lineEn hline
  have hroom := (hok.tx.runs hbusy).room hcfg
  have hend := progress_add_eq_len_iff hroom
  have htakes (t : State) :=
    takes_dispatch_iff (t := t) hfaults hic hu hline (request_iff.mpr (.inr (.inl ⟨htdre, htie⟩)))
  simp only [service_of_txReady hrx hready hcfg hroom] at htakes
  refine ⟨c, hcfg, fun hload t => ?stuck, fun x hload => ?loads⟩
  case stuck => simp [htakes, hload]
  case loads =>
    have heffw := effw_bounds (hok.cfg.2 c hcfg).1
    have htdr : (BitVec.ofNat 10 x).toNat = x := Nat.mod_eq_of_lt
      ((State.codecLoad_lt hload).trans_le (Nat.pow_le_pow_right (by decide) heffw.2))
    obtain ⟨hclearTdre, hclearTc⟩ := flags_dataWrite u x
    have hkeep := sameBut_dataWrite_stat u x
    simp only [hload, Option.map_some, Option.some.injEq] at htakes
    by_cases hlast : u.tx.progress.toNat + stride (effw c) = u.tx.len.toNat
    · have hfire := fire_ic_of_none (s := s.setInst i (txCompleted (txServed (effw c) x u))) hic i u.cb.txDone .txDone
      exact ⟨_, txCompleted (txServed (effw c) x u), (htakes _).mpr (if_pos hlast), State.setInst_inst_self hu _,
        onlyInst_fire s i _ _ _, htdr, hclearTdre, hclearTc, hkeep, rfl, rfl, toNat_progress_add hroom, rfl,
        fun hmore => absurd (hend.mpr hlast) hmore,
        fun _ => ⟨bit_setBit_same _ _ _ (by decide), (SameBut.refl _ u.ctrl).setBit _ _ (by decide) (by decide), rfl, rfl,
          rfl, hfire⟩⟩
    · exact ⟨_, txServed (effw c) x u, (htakes _).mpr (if_neg hlast), State.setInst_inst_self hu _,
        onlyInst_setInst s i _, htdr, hclearTdre, hclearTc, hkeep, rfl, rfl, toNat_progress_add hroom, rfl,
        fun _ => ⟨rfl, hbusy, hok.tx.busy_iff.mp hbusy, hic, rfl⟩, fun h => absurd (hend.mp h) hlast⟩

/-! ## The error service -/

/-- A pending error belongs to a receive in flight (R265; 10_state.md R37 (e)). -/
theorem InstOk.rx_busy_of_errAny {p : Params} {i : Nat} {u : InstState} (h : InstOk p i u) (herr : errAny u = true) :
    u.rx.busy = true := by
  have hne := h.rx.errEq Ctrl.neie (by decide)
  have hfe := h.rx.errEq Ctrl.feie (by decide)
  have hpe := h.rx.errEq Ctrl.peie (by decide)
  simp only [errAny, hne, hfe, hpe, Bool.or_eq_true, Bool.and_eq_true] at herr
  exact h.rx.orie (by tauto)

/-- A pending error has a kind (R266). -/
theorem classify_of_errAny {p : Params} {n : Nat} (h : Params.wf p n) {u : InstState} (herr : errAny u = true) :
    ∃ k, classify p.errPriority u.stat = some k := by
  refine Option.ne_none_iff_exists'.mp fun hnone => ?_
  obtain ⟨hor, hfe, hpf, hnf⟩ := (classify_eq_none_iff h).mp hnone
  simp only [errAny, hor, hfe, hpf, hnf, Bool.false_and, Bool.or_false, Bool.false_eq_true] at herr

/-- ClearErrorFlags clears the four error flags (45_line_side.md R300). -/
theorem flags_clearErrorFlags (u : InstState) :
    ∀ k ∈ [Stat.pf, Stat.fe, Stat.nf, Stat.or], bit (clearErrorFlags u).stat k = false := by
  simp (disch := decide) only [bit, clearErrorFlags_stat, getLsbD_setBit]
  simp

/-- ClearErrorFlags writes no other flag. -/
theorem sameBut_clearErrorFlags (u : InstState) :
    SameBut [Stat.pf, Stat.fe, Stat.nf, Stat.or] u.stat (clearErrorFlags u).stat :=
  ((((SameBut.refl _ u.stat).setBit _ _ (by decide) (by decide)).setBit _ _ (by decide) (by decide)).setBit _ _
    (by decide) (by decide)).setBit _ _ (by decide) (by decide)

/-- The error is serviced where neither other cause holds (R262); its classified kind is recorded and fired (R265). -/
theorem service_of_error {s : State} {i : Nat} {u : InstState} {k : ErrKind} (hrx : rxReady u = false)
    (htx : txReady u = false) (hkind : classify s.params.errPriority u.stat = some k) :
    service i u s = some ((s.setInst i (errServed k u)).fire i u.cb.err (.err k)) := by
  simp only [service, hrx, htx, Bool.false_eq_true, if_false, errService, hkind]
  rfl

/-- Settles O42: a pending error has a kind and a receive in flight to record it. -/
theorem errorServiceReportsKind : Obligations.ErrorServiceReportsKind := by
  intro s i u hinv hfaults hic hu hline hrx htx herr
  have hbusy := (hinv.instOk hu).rx_busy_of_errAny herr
  obtain ⟨-, -, hwf, -⟩ := hinv
  obtain ⟨k, hkind⟩ := classify_of_errAny hwf herr
  have hrequest : request u = true := Bool.or_eq_true_iff.mpr (.inr herr)
  have hrecord : (errServed k u).rx = { u.rx with status := .error k } := if_pos hbusy
  exact ⟨k, _, errServed k u, hkind,
    (takes_dispatch_iff hfaults hic hu hline hrequest).mpr (service_of_error hrx htx hkind),
    State.setInst_inst_self hu _, onlyInst_fire s i _ _ _, flags_clearErrorFlags u,
    sameBut_clearErrorFlags u, bit_withErrorEnables u.ctrl false,
    (SameBut.refl _ u.ctrl).withErrorEnables false (List.Subset.refl _), hrecord, hrecord ▸ hbusy, rfl, rfl,
    fire_ic_of_none (s := s.setInst i (errServed k u)) hic i u.cb.err (.err k)⟩

end Sys2Proof.Machine

/-! PROOFS of 45_line_side.md: parity, the transmit pipeline, the receive input, and that a fair line finishes its frame. -/

namespace Sys2Proof.Machine

/-! ## Parity -/

/-- The 1 bits below `2 ^ n`, counted by position, are the 1 digits in base 2: the lowest bit is the lowest digit, and the
other bits are those of the half. -/
theorem countP_testBit_range {n d : Nat} (hd : d < 2 ^ n) :
    (List.range n).countP d.testBit = (Nat.digits 2 d).sum := by
  induction n generalizing d with
  | zero =>
    obtain rfl : d = 0 := by omega
    rfl
  | succ n ih =>
    have hhalf : (List.range n).countP (d.testBit ∘ Nat.succ) = (Nat.digits 2 (d / 2)).sum := by
      rw [← ih (by omega)]
      exact congrArg (List.countP · _) (funext (Nat.testBit_succ d))
    have hlow : (if d.testBit 0 then 1 else 0) = d % 2 := by
      rcases Nat.mod_two_eq_zero_or_one d with h | h <;> simp [h]
    rw [List.range_succ_eq_map, List.countP_cons, List.countP_map, hhalf, hlow]
    rcases Nat.eq_zero_or_pos d with rfl | hpos
    · rfl
    · rw [Nat.digits_def' (by decide) hpos, List.sum_cons, Nat.add_comm]

/-- The parity bit is the remainder of the count, inverted for odd parity, so it sets the parity of the total (45_line_side.md
R295). -/
theorem popcount_add_parityBit (d : Nat) (pt : Bool) :
    (popcount d + if parityBit d pt then 1 else 0) % 2 = if pt then 1 else 0 := by
  unfold parityBit
  rcases Nat.mod_two_eq_zero_or_one (popcount d) with h | h <;> cases pt <;> simp [h, Nat.add_mod]

/-- Settles O47: the count is the digit sum, and the parity bit completes it. -/
theorem parityBitMakesCountEvenOrOdd : Obligations.ParityBitMakesCountEvenOrOdd := by
  intro d hd
  have hcount : popcount d = (Nat.digits 2 d).sum := countP_testBit_range hd
  exact ⟨hcount, fun pt => hcount ▸ popcount_add_parityBit d pt⟩

/-! ## The transmit pipeline -/

/-- TX_LOAD(i) is offered where TE is set, a character waits and the shift register is idle, and nowhere else (R293). -/
theorem txLoadEnabled_iff {u : InstState} : txLoadEnabled u = true ↔
    bit u.ctrl Ctrl.te = true ∧ bit u.stat Stat.tdre = false ∧ u.txShift = none := by
  simp only [txLoadEnabled, Bool.and_eq_true, Bool.not_eq_true', Option.isNone_iff_eq_none, and_assoc]

/-- The test of TX_LOAD(i) decides its step. -/
theorem takes_txLoad_iff {s t : State} {i : Nat} {u : InstState} (hfaults : s.faults = []) (hu : s.inst[i]? = some u) :
    Takes s (.txLoad i) t ↔ txLoadEnabled u = true ∧ s.setInst i (txLoaded u) = t := by
  rw [takes_iff_of_offer hfaults rfl, txLoadStep, hu, Option.bind_some, Option.ite_none_right_eq_some, Option.some.injEq]

/-- The frame of TX_LOAD, with the mask as a remainder (R293). -/
theorem frameOf_eq (u : InstState) : frameOf u =
    ⟨u.tdr.toNat % 2 ^ dataBits u.ctrl, dataBits u.ctrl,
      if bit u.ctrl Ctrl.pe then some (parityBit (u.tdr.toNat % 2 ^ dataBits u.ctrl) (bit u.ctrl Ctrl.pt)) else none,
      if bit u.baud Baud.sbns then .two else .one⟩ := by
  simp only [frameOf, Nat.and_two_pow_sub_one_eq_mod]

/-- Settles O44: the enabling test is exact, and the step loads the frame and marks TDR empty. -/
theorem txLoadMakesFrame : Obligations.TxLoadMakesFrame := by
  intro s i u hfaults hu
  constructor
  · intro hdisabled t htakes
    obtain ⟨hte, htdre, hidle⟩ := txLoadEnabled_iff.mp ((takes_txLoad_iff hfaults hu).mp htakes).1
    rcases hdisabled with h | h | h
    · exact Bool.false_ne_true (h.symm.trans hte)
    · exact Bool.false_ne_true (htdre.symm.trans h)
    · exact h hidle
  · intro hte htdre hidle
    exact ⟨_, txLoaded u, (takes_txLoad_iff hfaults hu).mpr ⟨txLoadEnabled_iff.mpr ⟨hte, htdre, hidle⟩, rfl⟩,
      State.setInst_inst_self hu _, onlyInst_setInst s i _, rfl, congrArg some (frameOf_eq u),
      bit_setBit_same _ _ _ (by decide), (SameBut.refl _ u.stat).setBit _ _ (by decide) (by decide), rfl⟩

/-- A raised flag is set where it was or where its condition holds. -/
theorem bit_raiseFlag_same (w : Word) {k : Nat} (b : Bool) (hk : k < 32) : bit (raiseFlag w k b) k = (bit w k || b) := by
  cases b with
  | true => rw [Bool.or_true]; exact bit_setBit_same w k true hk
  | false => exact (Bool.or_false _).symm

/-- A raised flag leaves the others. -/
theorem bit_raiseFlag_other (w : Word) {k j : Nat} (b : Bool) (hk : k < 32) (hj : j ≠ k) :
    bit (raiseFlag w k b) j = bit w j := by
  cases b with
  | true => exact bit_setBit_other w k true j hk hj
  | false => rfl

/-- TX_SHIFT_DONE raises TC where TDR is empty (R294). -/
theorem txShifted_stat (f : TxFrame) (u : InstState) :
    (txShifted f u).stat = raiseFlag u.stat Stat.tc (bit u.stat Stat.tdre) := rfl

/-- The shift register decides the step of TX_SHIFT_DONE(i). -/
theorem takes_txShiftDone_iff {s t : State} {i : Nat} {u : InstState} (hfaults : s.faults = [])
    (hu : s.inst[i]? = some u) :
    Takes s (.txShiftDone i) t ↔ ∃ f, u.txShift = some f ∧ s.setInst i (txShifted f u) = t := by
  rw [takes_iff_of_offer hfaults rfl, txShiftDoneStep, hu, Option.bind_some, Option.map_eq_some_iff]

/-- Settles O45: the frame in the shift register decides whether the step exists, and is what it puts on the wire. -/
theorem txShiftDoneSendsFrame : Obligations.TxShiftDoneSendsFrame := by
  intro s i u hfaults hu
  constructor
  · intro hnone t htakes
    obtain ⟨f, hf, -⟩ := (takes_txShiftDone_iff hfaults hu).mp htakes
    cases hnone.symm.trans hf
  · intro f hf
    have htc : bit (txShifted f u).stat Stat.tc = (bit u.stat Stat.tdre || bit u.stat Stat.tc) := by
      rw [txShifted_stat, bit_raiseFlag_same _ _ (by decide), Bool.or_comm]
    have hkeep : SameBut [Stat.tc] u.stat (txShifted f u).stat :=
      (SameBut.refl _ u.stat).raiseFlag Stat.tc (bit u.stat Stat.tdre) (by decide) (by decide)
    exact ⟨_, txShifted f u, (takes_txShiftDone_iff hfaults hu).mpr ⟨f, hf, rfl⟩, State.setInst_inst_self hu _,
      onlyInst_setInst s i _, rfl, rfl, rfl, htc, hkeep, rfl⟩

/-! ## The receive input -/

/-- The environment may send instance `i` a frame at any time (R296). -/
theorem takes_rxFrame {s : State} {i : Nat} {u : InstState} (f : RxFrame) (hfaults : s.faults = [])
    (hu : s.inst[i]? = some u) : Takes s (.rxFrame i f) (s.setInst i (rxReceived f u)) :=
  (takes_iff_of_offer hfaults rfl).mpr (by rw [rxFrameStep, hu, Option.map_some])

section
variable {u : InstState} (f : RxFrame)

/-- With the receiver disabled the frame is lost (R298). -/
theorem rxReceived_of_disabled (hre : bit u.ctrl Ctrl.re = false) : rxReceived f u = u := if_pos hre

/-- With a character still in RDR the frame is an overrun (R299). -/
theorem rxReceived_of_full (hre : bit u.ctrl Ctrl.re = true) (hrdrf : bit u.stat Stat.rdrf = true) :
    rxReceived f u = { u with stat := setBit u.stat Stat.or true } := by
  simp only [rxReceived, hre, hrdrf, Bool.true_eq_false, if_false, if_true]

/-- STAT after a frame is latched: RDRF, and the error flags the frame raises (R296 to R298). -/
def latchedStat (u : InstState) (f : RxFrame) : Word :=
  raiseFlag (raiseFlag (raiseFlag (setBit u.stat Stat.rdrf true) Stat.fe (!f.stopOk)) Stat.nf f.noisy) Stat.pf
    (parityWrong u.ctrl (rxValue u.ctrl f))

/-- Otherwise the frame is latched (R296). -/
theorem rxReceived_of_latched (hre : bit u.ctrl Ctrl.re = true) (hrdrf : bit u.stat Stat.rdrf = false) :
    rxReceived f u = { u with rdr := BitVec.ofNat 10 (rxValue u.ctrl f), stat := latchedStat u f } := by
  simp only [rxReceived, hre, hrdrf, Bool.true_eq_false, Bool.false_eq_true, if_false]
  rfl

/-- The stored character, with the mask as a remainder (R296). -/
theorem rxValue_eq_mod (ctrl : Word) : rxValue ctrl f = f.bits.toNat % 2 ^ effwCtrl ctrl :=
  Nat.and_two_pow_sub_one_eq_mod ..

/-- RDR has room for every stored character. -/
theorem toNat_rxValue (ctrl : Word) : (BitVec.ofNat 10 (rxValue ctrl f)).toNat = rxValue ctrl f :=
  Nat.mod_eq_of_lt (Nat.and_le_left.trans_lt f.bits.isLt)

/-- The parity check, with the mask as a remainder (R297). -/
theorem parityWrong_eq (ctrl : Word) (v : Nat) : parityWrong ctrl v = (bit ctrl Ctrl.pe &&
    (parityBit (v % 2 ^ (effwCtrl ctrl - 1)) (bit ctrl Ctrl.pt) != v.testBit (effwCtrl ctrl - 1))) := by
  rw [parityWrong, Nat.and_two_pow_sub_one_eq_mod]

/-- The flags after a frame is latched: RDRF is set, and each error flag is set where it was or the frame raises it. -/
theorem flags_latchedStat (u : InstState) :
    bit (latchedStat u f) Stat.rdrf = true ∧
      bit (latchedStat u f) Stat.fe = (bit u.stat Stat.fe || !f.stopOk) ∧
      bit (latchedStat u f) Stat.nf = (bit u.stat Stat.nf || f.noisy) ∧
      bit (latchedStat u f) Stat.pf = (bit u.stat Stat.pf || parityWrong u.ctrl (rxValue u.ctrl f)) := by
  simp (disch := decide) only [latchedStat, bit_raiseFlag_same, bit_raiseFlag_other, bit_setBit_same, bit_setBit_other,
    and_self]

/-- Latching a frame writes no other flag. -/
theorem sameBut_latchedStat (u : InstState) :
    SameBut [Stat.rdrf, Stat.fe, Stat.nf, Stat.pf] u.stat (latchedStat u f) :=
  ((((SameBut.refl _ u.stat).setBit _ _ (by decide) (by decide)).raiseFlag _ _ (by decide) (by decide)).raiseFlag _ _
    (by decide) (by decide)).raiseFlag _ _ (by decide) (by decide)

end

/-- Settles O46: RE and RDRF decide between the lost frame, the overrun and the latched character. -/
theorem rxFrameLatchesCharacter : Obligations.RxFrameLatchesCharacter := by
  intro s i f u hfaults hu
  have htakes := takes_rxFrame f hfaults hu
  refine ⟨fun hre => ?lost, fun hre => ⟨_, _, htakes, State.setInst_inst_self hu _, onlyInst_setInst s i _, rfl,
    fun hrdrf => ?overrun, fun hrdrf => ?latched⟩⟩
  case lost =>
    rwa [rxReceived_of_disabled f hre, State.setInst, list_set_same hu] at htakes
  case overrun =>
    rw [rxReceived_of_full f hre hrdrf]
    exact ⟨bit_setBit_same _ _ _ (by decide), (SameBut.refl _ u.stat).setBit _ _ (by decide) (by decide), rfl⟩
  case latched =>
    obtain ⟨hfull, hfe, hnf, hpf⟩ := flags_latchedStat f u
    rw [parityWrong_eq, rxValue_eq_mod] at hpf
    rw [rxReceived_of_latched f hre hrdrf]
    exact ⟨(toNat_rxValue f u.ctrl).trans (rxValue_eq_mod f u.ctrl), hfull, hfe, hnf, hpf, sameBut_latchedStat f u, rfl⟩

/-! ## Fairness -/

/-- Instance `i` has the frame `f` in its shift register and the wire log `w`. -/
def HoldsFrame (i : Nat) (f : TxFrame) (w : List TxFrame) (s : State) : Prop :=
  ∃ x, s.inst[i]? = some x ∧ x.txShift = some f ∧ x.wire = w

/-- The step `ev` from `s` to `t` empties the shift register of instance `i`, which held `f`: the frame goes to the wire, whose
log was `w`, or an INIT or a DEINIT drops it. -/
def EmptiesShift (i : Nat) (f : TxFrame) (w : List TxFrame) (s : State) (ev : Event) (t : State) : Prop :=
  ∃ v, t.inst[i]? = some v ∧ v.txShift = none ∧
    ((ev = .txShiftDone i ∧ v.wire = w ++ [f]) ∨
      (v.wire = w ∧ ((∃ a b, Delivers s ev (.init i a b)) ∨ Delivers s ev (.deinit i))))

section
variable {s t : State} {ev : Event} {i : Nat} {f : TxFrame} {w : List TxFrame}

/-- No step removes an instance. -/
theorem exists_inst_of_takes {u : InstState} (h : Takes s ev t) (hu : s.inst[i]? = some u) :
    ∃ v, t.inst[i]? = some v := by
  obtain ⟨hlt, -⟩ := List.getElem?_eq_some_iff.mp hu
  exact ⟨_, List.getElem?_eq_getElem ((offer_eventFrame h.2).length ▸ hlt)⟩

/-- A step keeps the frame where it is or empties the shift register in one of the two ways. -/
theorem HoldsFrame.step (h : HoldsFrame i f w s) (htakes : Takes s ev t) :
    HoldsFrame i f w t ∨ EmptiesShift i f w s ev t := by
  obtain ⟨u, hu, hf, rfl⟩ := h
  obtain ⟨v, hv⟩ := exists_inst_of_takes htakes hu
  rcases shiftingFrameIsNotLost ev s t i u v f htakes hu hf hv with hkept | ⟨hev, hnone, hwire⟩ | ⟨hnone, hwire, hdrop⟩
  · exact .inl ⟨v, hv, hkept⟩
  · exact .inr ⟨v, hv, hnone, .inl ⟨hev, hwire⟩⟩
  · exact .inr ⟨v, hv, hnone, .inr ⟨hwire, hdrop⟩⟩

/-- TX_SHIFT_DONE(i) is possible as long as the frame is in the shift register. -/
theorem HoldsFrame.offers (h : HoldsFrame i f w s) (hfaults : s.faults = []) :
    (offer (.txShiftDone i) s).isSome = true := by
  obtain ⟨u, hu, hf, -⟩ := h
  obtain ⟨-, hoffer⟩ := (takes_txShiftDone_iff hfaults hu).mpr ⟨f, hf, rfl⟩
  exact Option.isSome_of_eq_some hoffer

/-- TX_SHIFT_DONE(i) leaves no frame in the shift register. -/
theorem not_holdsFrame_of_txShiftDone (htakes : Takes s (.txShiftDone i) t) : ¬ HoldsFrame i f w t := by
  rintro ⟨v, hv, hf, -⟩
  obtain ⟨u, g, hu, -, rfl⟩ := txShiftDoneStep_next (eq_some_of_map_next htakes.2)
  obtain rfl : txShifted g u = v := Option.some.inj ((State.setInst_inst_self hu _).symm.trans hv)
  cases hf

end

/-- In a fair run no frame is in the shift register for ever: TX_SHIFT_DONE would stay possible, so it would be taken, and it
takes the frame out (R301). -/
theorem WeaklyFair.not_always_holdsFrame {σ : Nat → State} {ε : Nat → Event} {i n : Nat} {f : TxFrame} {w : List TxFrame}
    (hfair : WeaklyFair σ ε (.txShiftDone i)) (hrun : IsRun σ ε) : ¬ ∀ k, n ≤ k → HoldsFrame i f w (σ k) := by
  intro hholds
  obtain ⟨m, hnm, hm⟩ := hfair n fun k hk => (hholds k hk).offers (hrun k).1
  exact not_holdsFrame_of_txShiftDone (hm ▸ hrun m) (hholds (m + 1) (by omega))

/-- Settles O59: if no step ever emptied the shift register, the frame would be there at every step of the run, which a fair run
excludes. -/
theorem fairLineFinishesFrame : Obligations.FairLineFinishesFrame := by
  intro σ ε i n u f hrun hfair hu hf
  suffices h : ∃ m, n ≤ m ∧ (∀ k, n ≤ k → k ≤ m → HoldsFrame i f u.wire (σ k)) ∧
      EmptiesShift i f u.wire (σ m) (ε m) (σ (m + 1)) by
    obtain ⟨m, hnm, hholds, v, hv, hnone, hend⟩ := h
    exact ⟨m, v, hnm, hholds, hv, hnone, hend⟩
  by_contra hnever
  have hholds (m : Nat) (hnm : n ≤ m) : ∀ k, n ≤ k → k ≤ m → HoldsFrame i f u.wire (σ k) := by
    induction m, hnm using Nat.le_induction with
    | base =>
      intro k hnk hkn
      exact le_antisymm hkn hnk ▸ ⟨u, hu, hf, rfl⟩
    | succ m hnm ih =>
      have hnext := ((ih m hnm le_rfl).step (hrun m)).resolve_right fun hempty => hnever ⟨m, hnm, ih, hempty⟩
      intro k hnk hkm
      rcases Nat.le_succ_iff.mp hkm with hle | rfl
      · exact ih k hnk hle
      · exact hnext
  exact hfair.not_always_holdsFrame hrun fun k hk => hholds k hk k hk le_rfl

end Sys2Proof.Machine

/-! PROOFS of 60_exceptions.md: the halt after a fault, the steps of a handler, which enabled steps take place, and the faults a
step records. -/

namespace Sys2Proof.Machine

/-! ## The halt -/

/-- Settles O10: the recorded fault is the first thing a step looks at. -/
theorem stepHaltsAfterFault : Obligations.StepHaltsAfterFault := by
  intro s name more hfaults
  simp only [step, hfaults]

/-! ## Steps of a handler -/

/-- A handler with nothing left to issue returns; nothing is restored (60_exceptions.md R328, R329). -/
theorem step_handler_return {s : State} {i : Nat} {ev : CallbackEvent} {rest : List Event} (h : NextUp s .interrupt rest)
    (hic : s.ic = .active i ev []) : step s = .next { s with agenda := rest, ic := .none } := by
  rw [step_of_nextUp h]
  refine advance_of_offer_some ?_
  simp only [offer, interruptStep, hic]
  rfl

/-- Settles O9: the step delivers the packet with `pending` shortened, or the handler returns. -/
theorem stepRunsHandlerCommand : Obligations.StepRunsHandlerCommand := by
  intro s i ev rest hnext
  refine ⟨fun p pending hic => ?packet, step_handler_return hnext⟩
  rw [step_handler_packet hnext hic]
  exact ⟨fun c hc _ => runPacket_of_ok hc _, fun herror => runPacket_of_error herror _⟩

/-! ## A step with a transition is enabled -/

/-- Every transition is that of an enabled step (43_transfer_ops.md R222, R225; 44_interrupt_dispatcher.md R261; 45_line_side.md
R293, R294, R296; 60_exceptions.md R328). -/
theorem enabled_of_offer {s : State} {ev : Event} {r : Result} (h : offer ev s = some r) : enabled ev s = true := by
  cases ev with
  | command p => exact (Option.ite_none_right_eq_some.mp h).1
  | foreground =>
    obtain ⟨t, ht, -⟩ := Option.map_eq_some_iff.mp h
    exact (Option.ite_none_right_eq_some.mp ht).1
  | interrupt =>
    refine decide_eq_true fun hic => ?_
    simp only [offer, interruptStep, hic, reduceCtorEq] at h
  | dispatch i =>
    obtain ⟨t, ht, -⟩ := Option.map_eq_some_iff.mp h
    exact (Option.ite_none_right_eq_some.mp ht).1
  | txLoad i =>
    obtain ⟨t, ht, -⟩ := Option.map_eq_some_iff.mp h
    obtain ⟨u, hu, henabled, -⟩ := txLoadStep_next ht
    exact (Option.any_eq_true _ _).mpr ⟨u, hu, henabled⟩
  | txShiftDone i =>
    obtain ⟨t, ht, -⟩ := Option.map_eq_some_iff.mp h
    obtain ⟨u, f, hu, hf, -⟩ := txShiftDoneStep_next ht
    exact (Option.any_eq_true _ _).mpr ⟨u, hu, Option.isSome_of_eq_some hf⟩
  | rxFrame i f =>
    obtain ⟨t, ht, -⟩ := Option.map_eq_some_iff.mp h
    obtain ⟨u, hu, -⟩ := rxFrameStep_next ht
    exact Option.isSome_of_eq_some hu
  | hostWrite a v => rfl

/-- A step that is not enabled has no transition (log 2). -/
theorem offer_eq_none_of_disabled {s : State} {ev : Event} (h : enabled ev s = false) : offer ev s = none :=
  Option.eq_none_iff_forall_ne_some.mpr fun _ hoffer => Bool.false_ne_true (h.symm.trans (enabled_of_offer hoffer))

/-- Settles O13: the tests of the three steps ask for no handler, and a step that is not enabled is none. -/
theorem handlerIsNotPreempted : Obligations.HandlerIsNotPreempted := by
  intro s ev hic hev
  have hdisabled : enabled ev s = false := by
    rcases hev with ⟨i, rfl⟩ | rfl | ⟨p, rfl⟩
    · simp [enabled, dispatchEnabled, hic]
    · simp [enabled, foregroundEnabled, hic]
    · simp [enabled, commandEnabled, hic]
  exact ⟨hdisabled, offer_eq_none_of_disabled hdisabled⟩

/-! ## Accesses where memory admits every address -/

section
variable {s : State} {a e : Nat} (hadmits : ∀ a < 2 ^ 32, Params.admits s.params a = true) (hend : a + stride e ≤ 2 ^ 32)
include hadmits hend

/-- A character below 2^32 is loaded (20_memory.md R81). -/
theorem exists_codecLoad : ∃ v, s.codecLoad a e = some v := by
  rcases Nat.lt_or_ge 8 e with hgt | hle
  · rw [stride_of_gt hgt] at hend
    exact ⟨_, (s.codecLoad_of_gt a hgt).trans (if_pos (by simp [hadmits a (by omega), hadmits (a + 1) (by omega)]))⟩
  · rw [stride_of_le hle] at hend
    exact ⟨_, (s.codecLoad_of_le a hle).trans (if_pos (hadmits a (by omega)))⟩

/-- A character below 2^32 is stored (20_memory.md R81). -/
theorem exists_codecStore (v : Nat) : ∃ t, s.codecStore a v e = some t := by
  rcases Nat.lt_or_ge 8 e with hgt | hle
  · rw [stride_of_gt hgt] at hend
    exact ⟨_, (s.codecStore_of_gt a v hgt).trans (if_pos (by simp [hadmits a (by omega), hadmits (a + 1) (by omega)]))⟩
  · rw [stride_of_le hle] at hend
    exact ⟨_, (s.codecStore_of_le a v hle).trans (if_pos (hadmits a (by omega)))⟩

end

/-- The next character of a loop lies below 2^32 (43_transfer_ops.md R220). -/
theorem LoopOk.end_le {addr len : Word} {e idx : Nat} (h : LoopOk addr len e idx) :
    addr.toNat + idx + stride e ≤ 2 ^ 32 := by
  obtain ⟨-, -, -, hwrap, hlen, hidx, hlt⟩ := h
  have hroom : idx + stride e ≤ len.toNat := Nat.ModEq.add_le_of_lt (hidx.trans hlen.symm) hlt
  omega

/-- The next character of a transfer in flight lies below 2^32 (10_state.md R36). -/
theorem BufferRuns.end_le {Status : Type} {cfg : Option UartConfig} {lineEn : Bool} {b : TransferBuffer Status}
    {c : UartConfig} (h : BufferRuns cfg lineEn b) (hcfg : cfg = some c) :
    b.addr.toNat + b.progress.toNat + stride (effw c) ≤ 2 ^ 32 := by
  have hroom := h.room hcfg
  obtain ⟨-, -, -, hall⟩ := h
  obtain ⟨-, -, hwrap⟩ := hall c hcfg
  omega

/-! ## FG's loop -/

/-- An enabled step of FG's loop is stuck only on a refused access (60_exceptions.md R322). -/
theorem exists_foregroundStep {s : State} (hinv : s.Inv) (hadmits : ∀ a < 2 ^ 32, Params.admits s.params a = true)
    (h : foregroundEnabled s = true) : ∃ t, foregroundStep s = some t := by
  have hfits := hinv.fgOk.fits
  have hic : s.ic = .none := of_decide_eq_true (Bool.and_eq_true_iff.mp h).1
  cases hfg : s.fg with
  | idle => simp [foregroundEnabled, hfg] at h
  | sendBlk i addr len e idx phase =>
    rw [hfg] at hfits
    cases phase with
    | waitTdre =>
      obtain ⟨u, hu, htdre⟩ : ∃ u, s.inst[i]? = some u ∧ bit u.stat Stat.tdre = true := by
        simpa [foregroundEnabled, hic, hfg, Option.any_eq_true] using h
      obtain ⟨v, hv⟩ := exists_codecLoad hadmits (LoopOk.end_le hfits)
      rw [foregroundStep_of_waitTdre hic hu hfg, if_pos htdre, sendBlkData, hv]
      exact ⟨_, rfl⟩
    | waitTc =>
      obtain ⟨u, hu, htc⟩ : ∃ u, s.inst[i]? = some u ∧ bit u.stat Stat.tc = true := by
        simpa [foregroundEnabled, hic, hfg, Option.any_eq_true] using h
      exact ⟨_, (foregroundStep_of_waitTc hic hu hfg).trans (if_pos htc)⟩
  | recvBlk i addr len e idx =>
    rw [hfg] at hfits
    obtain ⟨u, hu, hrdrf⟩ : ∃ u, s.inst[i]? = some u ∧ bit u.stat Stat.rdrf = true := by
      simpa [foregroundEnabled, hic, hfg, Option.any_eq_true] using h
    obtain ⟨m, hm⟩ := exists_codecStore hadmits (LoopOk.end_le hfits) (dataReadValue u)
    rw [foregroundStep_of_recvBlk hic hu hfg, if_pos hrdrf, recvBlkData, hm]
    exact ⟨_, rfl⟩

/-! ## The dispatcher -/

/-- The first cause that holds, with every quantity of its service's rule defined: a receive or a send in flight under a
configuration, or a classified error (44_interrupt_dispatcher.md R262 to R266). -/
inductive ServiceDefined (priority : List ErrKind) (u : InstState) : Prop
  | receive {c : UartConfig} (hready : rxReady u = true) (hcfg : u.cfg = some c) (hruns : BufferRuns u.cfg u.lineEn u.rx)
  | transmit {c : UartConfig} (hrx : rxReady u = false) (hready : txReady u = true) (hcfg : u.cfg = some c)
      (hruns : BufferRuns u.cfg u.lineEn u.tx)
  | error {k : ErrKind} (hrx : rxReady u = false) (htx : txReady u = false) (hkind : classify priority u.stat = some k)

/-- Under the invariant every quantity of a requested service is defined (10_state.md R37). -/
theorem State.Inv.serviceDefined {s : State} (hinv : s.Inv) {i : Nat} {u : InstState} (hu : s.inst[i]? = some u)
    (hline : u.lineEn = true) (hrequest : request u = true) : ServiceDefined s.params.errPriority u := by
  have hok := hinv.instOk hu
  obtain ⟨c, hcfg⟩ := hok.cfg_of_lineEn hline
  by_cases hrx : rxReady u = true
  · exact .receive hrx hcfg (hok.rx.runs (hok.rx_busy_of_ready hrx))
  · rw [Bool.not_eq_true] at hrx
    by_cases htx : txReady u = true
    · exact .transmit hrx htx hcfg (hok.tx.runs (hok.tx_busy_of_ready htx))
    · rw [Bool.not_eq_true] at htx
      have herr : errAny u = true := by simpa [request, hrx, htx] using hrequest
      obtain ⟨-, -, hwf, -⟩ := hinv
      obtain ⟨k, hkind⟩ := classify_of_errAny hwf herr
      exact .error hrx htx hkind

/-- A service with its quantities defined is stuck only on a refused access (60_exceptions.md R322). -/
theorem ServiceDefined.exists_service {s : State} {u : InstState} (h : ServiceDefined s.params.errPriority u) (i : Nat)
    (hadmits : ∀ a < 2 ^ 32, Params.admits s.params a = true) : ∃ t, service i u s = some t := by
  cases h with
  | receive hready hcfg hruns =>
    obtain ⟨m, hm⟩ := exists_codecStore hadmits (hruns.end_le hcfg) u.rdr.toNat
    rw [service_of_rxReady hready hcfg (hruns.room hcfg), hm]
    exact ⟨_, rfl⟩
  | transmit hrx hready hcfg hruns =>
    obtain ⟨v, hv⟩ := exists_codecLoad hadmits (hruns.end_le hcfg)
    rw [service_of_txReady hrx hready hcfg (hruns.room hcfg), hv]
    exact ⟨_, rfl⟩
  | error hrx htx hkind => exact ⟨_, service_of_error hrx htx hkind⟩

/-- A service with its quantities defined records no fault. -/
theorem ServiceDefined.service_faults {s t : State} {u : InstState} {i : Nat}
    (h : ServiceDefined s.params.errPriority u) (hservice : service i u s = some t) : t.faults = s.faults := by
  cases h with
  | receive hready hcfg hruns =>
    rw [service_of_rxReady hready hcfg (hruns.room hcfg)] at hservice
    obtain ⟨r, hstore, rfl⟩ := Option.map_eq_some_iff.mp hservice
    obtain ⟨m, rfl⟩ := State.codecStore_next hstore
    split <;> rfl
  | transmit hrx hready hcfg hruns =>
    rw [service_of_txReady hrx hready hcfg (hruns.room hcfg)] at hservice
    obtain ⟨v, -, rfl⟩ := Option.map_eq_some_iff.mp hservice
    split <;> rfl
  | error hrx htx hkind =>
    rw [service_of_error hrx htx hkind] at hservice
    cases hservice
    rfl

/-- An enabled DISPATCH(i) is stuck only on a refused access (60_exceptions.md R322). -/
theorem exists_dispatchStep {s : State} {i : Nat} (hinv : s.Inv)
    (hadmits : ∀ a < 2 ^ 32, Params.admits s.params a = true) (h : dispatchEnabled s i = true) :
    ∃ t, dispatchStep i s = some t := by
  obtain ⟨-, u, hu, hline, hrequest⟩ := dispatchEnabled_iff.mp h
  rw [dispatchStep, if_pos h, hu, Option.bind_some]
  exact (hinv.serviceDefined hu hline hrequest).exists_service i hadmits

/-- Under the invariant DISPATCH(i) records no fault (60_exceptions.md R321, log 10). -/
theorem dispatchStep_faults {s t : State} {i : Nat} (hinv : s.Inv) (h : dispatchStep i s = some t) :
    t.faults = s.faults := by
  obtain ⟨henabled, h⟩ := Option.ite_none_right_eq_some.mp h
  obtain ⟨-, u, hu, hline, hrequest⟩ := dispatchEnabled_iff.mp henabled
  rw [hu, Option.bind_some] at h
  exact (hinv.serviceDefined hu hline hrequest).service_faults h

/-! ## An enabled step has a transition -/

/-- Where memory admits every address, an enabled step has a transition. -/
theorem exists_offer_of_enabled {s : State} {ev : Event} (hinv : s.Inv)
    (hadmits : ∀ a < 2 ^ 32, Params.admits s.params a = true) (h : enabled ev s = true) : ∃ r, offer ev s = some r := by
  cases ev with
  | command p => exact ⟨_, if_pos h⟩
  | foreground =>
    obtain ⟨t, ht⟩ := exists_foregroundStep hinv hadmits h
    exact ⟨_, congrArg (Option.map _) ht⟩
  | interrupt =>
    cases hic : s.ic with
    | none => exact absurd hic (of_decide_eq_true h)
    | active i event pending => cases pending <;> exact ⟨_, by simp only [offer, interruptStep, hic]; rfl⟩
  | dispatch i =>
    obtain ⟨t, ht⟩ := exists_dispatchStep hinv hadmits h
    exact ⟨_, congrArg (Option.map _) ht⟩
  | txLoad i =>
    obtain ⟨u, hu, henabled⟩ := (Option.any_eq_true _ _).mp h
    exact ⟨_, by rw [offer, txLoadStep, hu, Option.bind_some, if_pos henabled]; rfl⟩
  | txShiftDone i =>
    obtain ⟨u, hu, hframe⟩ := (Option.any_eq_true _ _).mp h
    obtain ⟨f, hf⟩ := Option.isSome_iff_exists.mp hframe
    exact ⟨_, by rw [offer, txShiftDoneStep, hu, Option.bind_some, hf]; rfl⟩
  | rxFrame i f =>
    obtain ⟨u, hu⟩ := Option.isSome_iff_exists.mp h
    exact ⟨_, by rw [offer, rxFrameStep, hu]; rfl⟩
  | hostWrite a v => exact ⟨_, rfl⟩

/-- Settles O12: a transition is that of an enabled step, and with every access admitted an enabled step has one. -/
theorem enabledStepsTakePlace : Obligations.EnabledStepsTakePlace := by
  intro s ev hinv hfaults hadmits
  constructor
  · intro henabled
    obtain ⟨r, hoffer⟩ := exists_offer_of_enabled hinv hadmits henabled
    obtain ⟨t, rfl⟩ := offer_answers_next hoffer
    exact ⟨t, hfaults, hoffer⟩
  · rintro ⟨t, -, hoffer⟩
    exact enabled_of_offer hoffer

/-! ## What a step adds to the faults -/

/-- One step's addition to the faults under the invariant: nothing, or a fault other than InvariantBroken (60_exceptions.md
R321). -/
inductive FaultStep (l : List FaultName) : List FaultName → Prop
  | same : FaultStep l l
  | raised {name : FaultName} (hname : name ≠ .invariantBroken) : FaultStep l (l ++ [name])

namespace FaultStep
variable {s t : State}

/-- InvariantBroken is not among the faults if it was not before. -/
theorem not_mem_invariantBroken {l l' : List FaultName} (h : FaultStep l l') (hl : FaultName.invariantBroken ∉ l) :
    FaultName.invariantBroken ∉ l' := by
  cases h with
  | same => exact hl
  | raised hname => simp [hl, hname.symm]

/-- The faults are as before. -/
theorem of_eq (h : t.faults = s.faults) : FaultStep s.faults t.faults := h ▸ .same

/-- A command that answers a state with the faults as before. -/
theorem of_next {r : State} (h : Host.Outcome.next r = (.next t : Result)) (hr : r.faults = s.faults) :
    FaultStep s.faults t.faults := by
  cases h
  exact of_eq hr

/-- Through the instance check. -/
theorem of_withInst {w0 : Word} {i : Nat} {rest : InstState → Result} (h : s.withInst w0 i rest = .next t)
    (hrest : ∀ u, rest u = .next t → FaultStep s.faults t.faults) : FaultStep s.faults t.faults := by
  rcases State.withInst_next h with ⟨-, rfl⟩ | ⟨u, -, h⟩
  · exact .same
  · exact hrest u h

/-- Through the instance and initialization checks. -/
theorem of_withReady {w0 : Word} {i : Nat} {rest : InstState → UartConfig → Result} (h : s.withReady w0 i rest = .next t)
    (hrest : ∀ u c, rest u c = .next t → FaultStep s.faults t.faults) : FaultStep s.faults t.faults := by
  rcases State.withReady_next h with ⟨_, rfl⟩ | ⟨u, c, -, -, h⟩
  · exact .same
  · exact hrest u c h

/-- Through the acceptance checks, which may record BlockingInInterruptContext. -/
theorem of_withArm {w0 : Word} {i : Nat} {blocking : Bool} {active : State → Nat → InstState → Bool} {addr len : Word}
    {rest : InstState → UartConfig → Result} (h : s.withArm w0 i blocking active addr len rest = .next t)
    (hrest : ∀ u c, rest u c = .next t → FaultStep s.faults t.faults) : FaultStep s.faults t.faults := by
  rcases State.withArm_next h with ⟨-, -, rfl⟩ | ⟨_, rfl⟩ | ⟨u, c, -, -, -, -, -, -, -, -, h⟩
  · exact .raised nofun
  · exact .same
  · exact hrest u c h

end FaultStep

/-- What a command adds to the faults. -/
theorem exec_faultStep {c : Instr} {s t : State} (h : exec c s = .next t) : FaultStep s.faults t.faults := by
  cases c with
  | init i config baud =>
    refine .of_withInst h fun u h => ?_
    split at h
    · exact .of_next h rfl
    · split at h
      · cases h
        exact .raised nofun
      · exact .of_next h rfl
  | setbaud i baud =>
    refine .of_withReady h fun u c h => ?_
    split at h
    · exact .of_next h rfl
    · split at h
      · cases h
        exact .raised nofun
      · exact .of_next h rfl
  | sendBlocking i addr len | recvBlocking i addr len => exact .of_withArm h fun _ _ h => .of_next h rfl
  | sendAsync i addr len => exact .of_withArm (blocking := false) (active := State.txActive) h fun _ _ h => .of_next h rfl
  | recvAsync i addr len => exact .of_withArm (blocking := false) (active := State.rxActive) h fun _ _ h => .of_next h rfl
  | deinit i | regCallback i kind handle | regErrCallback i handle | getTxStatus i | getRxStatus i =>
    exact .of_withInst h fun _ h => .of_next h rfl
  | abortSend i | abortRecv i | txEnable i | txDisable i | rxEnable i | rxDisable i =>
    exact .of_withReady h fun _ _ h => .of_next h rfl

/-- What the delivery of a packet adds to the faults. -/
theorem runPacket_faultStep {p : Packet} {s t : State} (h : runPacket p s = .next t) : FaultStep s.faults t.faults := by
  rcases runPacket_next h with ⟨c, -, h⟩ | rfl
  · exact exec_faultStep h
  · exact .same

/-- What an event adds to the faults in a state with the invariant. -/
theorem offer_faultStep {ev : Event} {s t : State} (hinv : s.Inv) (h : offer ev s = some (.next t)) :
    FaultStep s.faults t.faults := by
  cases ev with
  | command p => exact runPacket_faultStep (offer_command_next h).2
  | interrupt =>
    rcases interruptStep_next h with ⟨i, ev, p, rest, -, hrun⟩ | rfl
    · simpa using runPacket_faultStep hrun
    · exact .same
  | foreground =>
    cases foregroundStep_outcome (eq_some_of_map_next h) with
    | writes => exact .same
  | dispatch i => exact .of_eq (dispatchStep_faults hinv (eq_some_of_map_next h))
  | txLoad i =>
    obtain ⟨u, -, -, rfl⟩ := txLoadStep_next (eq_some_of_map_next h)
    exact .same
  | txShiftDone i =>
    obtain ⟨u, f, -, -, rfl⟩ := txShiftDoneStep_next (eq_some_of_map_next h)
    exact .same
  | rxFrame i f =>
    obtain ⟨u, -, rfl⟩ := rxFrameStep_next (eq_some_of_map_next h)
    exact .same
  | hostWrite a v =>
    cases h
    exact .same

/-- What a step adds to the faults in a state with the invariant; an idle step and a lapsed entry add nothing. -/
theorem step_faultStep {s t : State} (hinv : s.Inv) (h : step s = .next t) : FaultStep s.faults t.faults := by
  obtain ⟨-, ⟨-, rfl⟩ | ⟨ev, rest, -, hadvance⟩⟩ := step_next h
  · exact .same
  · have hmoved : State.Inv { s with agenda := rest } := hinv
    rcases advance_next hadvance with hoffer | ⟨-, rfl⟩
    · simpa using offer_faultStep hmoved hoffer
    · exact .same

/-- Settles O52: a step starts with no fault recorded and adds none that is InvariantBroken. -/
theorem invariantIsNeverFoundBroken : Obligations.InvariantIsNeverFoundBroken := by
  intro s t hinv hstep
  obtain ⟨hfaults, -⟩ := step_next hstep
  exact (step_faultStep hinv hstep).not_mem_invariantBroken (by simp [hfaults])

end Sys2Proof.Machine

/-! PROOFS of 70_reset_and_hazards.md: the values of power-on reset, and what is enabled after it. -/

namespace Sys2Proof.Machine

variable {n i : Nat} {p : Params} {mem : List Host.Cell} {u : InstState}

/-- Every instance of the power-on state has the values of power-on reset (R360). -/
theorem eq_reset_of_powerOn_inst (h : (State.powerOn n p mem).inst[i]? = some u) : u = .reset :=
  List.eq_of_mem_replicate (List.mem_of_getElem? h)

/-- No DISPATCH is enabled after power-on reset: the interrupt line of every instance is disabled (R261, R360). -/
theorem dispatchEnabled_powerOn : dispatchEnabled (State.powerOn n p mem) i = false := by
  refine Bool.eq_false_iff.mpr fun henabled => ?_
  obtain ⟨-, u, hu, hline, -⟩ := dispatchEnabled_iff.mp henabled
  obtain rfl := eq_reset_of_powerOn_inst hu
  exact Bool.false_ne_true hline

/-- Settles O48: the shared state and every instance are as R360 gives them; FG is idle with no handler, and every line is
disabled. -/
theorem powerOnValues : Obligations.PowerOnValues := by
  intro n p mem
  refine ⟨List.length_replicate, rfl, rfl, rfl, rfl, rfl, fun _ => rfl, fun _ => dispatchEnabled_powerOn, fun i u hu => ?_⟩
  obtain rfl := eq_reset_of_powerOn_inst hu
  exact ⟨rfl, rfl, rfl, rfl, rfl, rfl, rfl, rfl, rfl, rfl, rfl, rfl, rfl⟩

end Sys2Proof.Machine
